-- ==== Sys2Proof/Word.lean ====
section
/-! DEFINITION. The word and byte types of the KV4856 (R3, R4). -/
namespace Sys2Proof

/-- A word is 48 bits; bit 47 is the most significant (R3, R4). -/
abbrev Word := BitVec 48

/-- A byte of the wire order of R5. -/
abbrev Byte := BitVec 8

end Sys2Proof
end

