-- ==== Sys2Proof/Syntax.lean ====
section
/-! DEFINITION. The commands the KV4856 takes and the steps its engines make: one constructor of `Instr` for each row of the spec's table. -/
namespace Sys2Proof

/-- The two equal host ports (05_host_link). -/
inductive Port where
  | a
  | b
  deriving DecidableEq, Repr

/-- A register file that takes writes: a port's (R179) or the management port's (R607-R612). -/
inductive RegFile where
  | port (p : Port)
  | mgmt
  deriving DecidableEq, Repr

/-- Pad groups with a VDDIO rail (R34-R36). -/
inductive Rail where
  | a
  | b
  | m
  deriving DecidableEq, Repr

/-- An applet is named by its tenant and applet id (R672, R675). -/
structure AppletRef where
  tenant : Byte
  id : BitVec 16
  deriving DecidableEq, Repr

/-- Where an accepted command came from: a host port, an applet's service call (R661) or a management packet (R613). -/
inductive Origin where
  | port (p : Port)
  | applet (a : AppletRef)
  | mgmt
  deriving DecidableEq, Repr

/-- An accepted command as the device holds it between admission and completion: the frame's header fields,
the clear payload words, and what admission bound to it (R187, R247, R258, R559, R560). -/
structure Req where
  /-- Admission number: the order in which SCH took commands in. -/
  id : Nat := 0
  origin : Origin := .port .a
  tenant : Byte := 0
  opcode : BitVec 16 := 0
  tag : BitVec 16 := 0
  flags : Byte := 0
  layout : Byte := 1
  session : Byte := 0
  version : Byte := 3
  /-- The trailer's counter field as received (R189). -/
  counter : BitVec 16 := 0
  /-- Payload length L in bytes. -/
  len : Nat := 0
  words : List Word := []
  /-- The generation bound at admission (R559). -/
  gen : Nat := 0
  /-- Admission tick and the last tick of the deadline (R257, R258). -/
  start : Nat := 0
  deadline : Nat := 0
  band : Nat := 2
  /-- Request-ring words held until completion (R203). -/
  ringWords : Nat := 0
  /-- The command arrived in an owner session opened with ADMIN (R224). -/
  admin : Bool := false
  /-- The status with which a row of the mode-combination matrix refuses the command, fixed at its admission (R18, R28). -/
  barred : Option Byte := none
  /-- Which session verified the command: ids are used again, the number of an opening is not (R221, R223). -/
  opened : Nat := 0
  deriving DecidableEq, Repr

/-- The cores a watchdog, a protection fault or a debug request names (R141, R576, debug access register). -/
inductive CoreId where
  | sec
  | pmc
  | sch
  | cc (n : Fin 4)
  deriving DecidableEq, Repr

/-- A core whose watchdog runs out, and the tick of the last service (R141). -/
structure CoreLapse where
  core : CoreId
  served : Nat
  deriving DecidableEq, Repr

/-- A cluster whose watchdog runs out, and the tick of the last service (R141). -/
structure ClusterLapse where
  cluster : Fin 4
  served : Nat
  deriving DecidableEq, Repr

/-- A subject of the region table that can fault (R577). -/
inductive Subject where
  | core (c : CoreId)
  | applet (a : AppletRef)
  deriving DecidableEq, Repr

/-- What woke the device from HIBERNATE (R52). -/
inductive WakeSource where
  | select (p : Port)
  | mgmtAddress
  | speed
  | resetPin
  | alarm
  | tamper
  deriving DecidableEq, Repr

/-- The six decoded reads of one fuse word: copy 0 then copy 1, each at the low, nominal and high margin; `none` is a
read the word's code cannot correct (R131, R132). A word that no `FuseRead` names reads as its cells hold it. -/
structure FuseRead where
  word : Nat
  reads : List (Option Word)
  deriving DecidableEq, Repr

/-- How a two-phase NVM write ended (R718, R722): verified, verified after the row was remapped, or unable to stand. -/
inductive WriteEnd where
  | verified
  | remapped
  | failed
  deriving DecidableEq, Repr

/-- What each of the four clock checks reports, none where it reports nothing now (R68): C1 counts RC cycles over 4,096 crystal
periods; C2 counts core cycles over 8 crystal periods beside the lock indicator; C3 is the frequency in kHz that the VCO control word
stands for; the stop detector says whether the crystal oscillates. -/
structure ClockResult where
  c1 : Option Nat := none
  c2 : Option (Nat × Bool) := none
  c3 : Option Nat := none
  oscillates : Option Bool := none
  deriving DecidableEq, Repr

/-- How the programming of one fuse group ends (R129, R130): whole; or a bit of copy 0 or 1 that still reads unblown after it was
programmed again; or PF_N or RESET_N stops it in a copy after that many bits. -/
inductive FuseEnd where
  | programmed
  | stuck (second : Bool) (bit : Nat)
  | stopped (second : Bool) (bits : Nat)
  deriving DecidableEq, Repr

/-- What the physical world answers during one run of the boot ROM (R143): fuse reads, straps, supply, the state in which
interrupted writes and duplicated stores are found. -/
structure BootIn where
  reads : List FuseRead := []
  /-- BOOT_SEL1, BOOT_SEL0 (R144). -/
  sel : BitVec 2 := 0
  /-- VDD in mV and the hottest junction temperature in 1/16 degC (R128). -/
  vdd : Nat := 3300
  temp : Int := 400
  /-- The interrupted last record of a stream is readable in every word (R446). -/
  recordReadable : Bool := true
  /-- Phase 1 of that record had come to its head word (R445, R446). -/
  recordHead : Bool := true
  /-- The pending bank's image and digest agree (R565). -/
  bankConsistent : Bool := true
  /-- Both copies of the key store fail their checks (R167). -/
  keyStoreLost : Bool := false
  /-- Persistent slots of which one copy, or both, fail (R334): tenant, index, both lost. -/
  slotFaults : List (Byte × Nat × Bool) := []
  /-- Both checkpoint copies fail their check bits (R108). -/
  checkpointLost : Bool := false
  /-- The component directory fails in both copies (R604). -/
  directoryLost : Bool := false
  /-- Neither bank's digest can be verified (R570). -/
  banksLost : Bool := false
  /-- Tamper latches that fail their parity (R511). -/
  latchParity : List (Fin 29) := []
  /-- Streams whose header CMAC or trailer fails at start: true main, false tamper; the kind of JOURNAL_FAULT (R468). -/
  journalFaults : List (Bool × Nat) := []
  /-- The derivation path's self-check passes (R336). -/
  derivationOk : Bool := true
  /-- The flash answers no read at all, quad or single-line (R147). -/
  flashAbsent : Bool := false
  /-- Flash slots (0x01, 0x02) whose first word the quad-output read misses; the single-line re-read of R147 shows it. -/
  quadMisses : List Nat := []
  /-- The core rail in mV after phase 3 (R60). -/
  coreRail : Nat := 800
  deriving DecidableEq, Repr

/-- What a scrub of one NVM row found (R628). -/
inductive ScrubFinding where
  | clean
  | corrected (words : List Nat)
  | uncorrectable
  deriving DecidableEq, Repr

/-- The area a row belongs to, as far as R630 to R632 tell rows apart. -/
inductive RowArea where
  | journal (stream : Bool) (index : Nat)
  | fallback
  | keyStore
  | protectedArea
  | other
  deriving DecidableEq, Repr

/-- A tamper source that reads or samples (R475). -/
abbrev Source := Fin 29

/-- The applet machine's instructions (R656), without the applet that runs them. -/
inductive AppletInstr where
  | nop
  | halt
  | trap (imm : BitVec 14)
  | add (rd ra rb : BitVec 4)
  | sub (rd ra rb : BitVec 4)
  | and (rd ra rb : BitVec 4)
  | or (rd ra rb : BitVec 4)
  | xor (rd ra rb : BitVec 4)
  | shl (rd ra rb : BitVec 4)
  | shr (rd ra rb : BitVec 4)
  | sar (rd ra rb : BitVec 4)
  | mul (rd ra rb : BitVec 4)
  | mulhu (rd ra rb : BitVec 4)
  | divu (rd ra rb : BitVec 4)
  | remu (rd ra rb : BitVec 4)
  | slt (rd ra rb : BitVec 4)
  | sltu (rd ra rb : BitVec 4)
  | addi (rd ra : BitVec 4) (imm : BitVec 10)
  | andi (rd ra : BitVec 4) (imm : BitVec 10)
  | ori (rd ra : BitVec 4) (imm : BitVec 10)
  | xori (rd ra : BitVec 4) (imm : BitVec 10)
  | shli (rd ra : BitVec 4) (imm : BitVec 10)
  | shri (rd ra : BitVec 4) (imm : BitVec 10)
  | sari (rd ra : BitVec 4) (imm : BitVec 10)
  | slti (rd ra : BitVec 4) (imm : BitVec 10)
  | sltiu (rd ra : BitVec 4) (imm : BitVec 10)
  | ld (rd ra : BitVec 4) (imm : BitVec 10)
  | st (rd ra : BitVec 4) (imm : BitVec 10)
  | ldb (rd ra : BitVec 4) (imm : BitVec 10)
  | stb (rd ra : BitVec 4) (imm : BitVec 10)
  | ldi (rd : BitVec 4) (imm : BitVec 14)
  | ldx (rd : BitVec 4) (imm : BitVec 14)
  | beqz (ra : BitVec 4) (ofs : BitVec 14)
  | bnez (ra : BitVec 4) (ofs : BitVec 14)
  | bltz (ra : BitVec 4) (ofs : BitVec 14)
  | bgez (ra : BitVec 4) (ofs : BitVec 14)
  | beq (rd ra : BitVec 4) (ofs : BitVec 10)
  | bne (rd ra : BitVec 4) (ofs : BitVec 10)
  | blt (rd ra : BitVec 4) (ofs : BitVec 10)
  | bltu (rd ra : BitVec 4) (ofs : BitVec 10)
  | jmp (target : BitVec 15)
  | call (target : BitVec 15)
  | jr (ra : BitVec 4)
  | callr (ra : BitVec 4)
  | svc (opcode : BitVec 16)
  | tick (rd : BitVec 4)
  | fuel (rd : BitVec 4)
  | rand (rd : BitVec 4)
  deriving DecidableEq, Repr

/-- The commands and steps of the KV4856. -/
inductive Instr where
  -- class 0x01, host link (R234)
  /-- LINK_INFO, R234. -/
  | linkInfo (r : Req)
  /-- LINK_PING, R234. -/
  | linkPing (r : Req)
  /-- SESSION_OPEN, R206-R213. -/
  | sessionOpen (r : Req)
  /-- SESSION_CLOSE, R221. -/
  | sessionClose (r : Req)
  /-- SESSION_STATUS, R234. -/
  | sessionStatus (r : Req)
  /-- SESSION_REVOKE, R221. -/
  | sessionRevoke (r : Req)
  -- class 0x02, tenants and lifecycle (R284, R285, R171)
  /-- TENANT_WRITE, R284. -/
  | tenantWrite (r : Req)
  /-- TENANT_REMOVE, R285. -/
  | tenantRemove (r : Req)
  /-- TENANT_READ, R285. -/
  | tenantRead (r : Req)
  /-- TENANT_LIST, R285. -/
  | tenantList (r : Req)
  /-- TENANT_STATS, R285. -/
  | tenantStats (r : Req)
  /-- ENGINE_OCCUPANCY, R285. -/
  | engineOccupancy (r : Req)
  /-- LIFECYCLE_READ, R171. -/
  | lifecycleRead (r : Req)
  /-- LIFECYCLE_ADVANCE, R123: how the programming of its LIFECYCLE group ends (R129, R130). -/
  | lifecycleAdvance (r : Req) (fuse : FuseEnd)
  /-- OPTION_PROGRAM, R172; the group whose programming does not end whole, if any. -/
  | optionProgram (r : Req) (fails : Option (Nat × FuseEnd))
  -- class 0x03, keys (R337)
  /-- KEY_DERIVE, R293. -/
  | keyDerive (r : Req)
  /-- FLACON_LOAD, R314. -/
  | flaconLoad (r : Req)
  /-- FLACON_CREATE, R316. -/
  | flaconCreate (r : Req)
  /-- FLACON_IMPORT, R317. -/
  | flaconImport (r : Req)
  /-- FLACON_REWRAP, R320. -/
  | flaconRewrap (r : Req)
  /-- FLACON_REWRAP_CHUNK, R338. -/
  | flaconRewrapChunk (r : Req)
  /-- FLACON_EPOCH_ADVANCE, R319. -/
  | flaconEpochAdvance (r : Req)
  /-- KEY_PERSIST, R308. -/
  | keyPersist (r : Req)
  /-- KEY_ERASE, R326. -/
  | keyErase (r : Req)
  /-- KEY_INFO, R337. -/
  | keyInfo (r : Req)
  /-- KEY_LIST, R337. -/
  | keyList (r : Req)
  /-- KEY_PUBLIC, R337. -/
  | keyPublic (r : Req)
  -- classes 0x04 and 0x05 (R386)
  /-- CIPHER_ENCRYPT, R342. -/
  | cipherEncrypt (r : Req)
  /-- CIPHER_DECRYPT, R361. -/
  | cipherDecrypt (r : Req)
  /-- STREAM_OPEN, R387. -/
  | streamOpen (r : Req)
  /-- STREAM_CHUNK, R366. -/
  | streamChunk (r : Req)
  /-- HASH, R379. -/
  | hash (r : Req)
  /-- HASH_STREAM_OPEN, R386. -/
  | hashStreamOpen (r : Req)
  /-- HASH_STREAM_CHUNK, R386. -/
  | hashStreamChunk (r : Req)
  -- class 0x06 (R421)
  /-- PK_SIGN, R404. -/
  | pkSign (r : Req)
  /-- PK_VERIFY, R406. -/
  | pkVerify (r : Req)
  /-- PK_AGREE, R422. -/
  | pkAgree (r : Req)
  /-- PK_KEM_PUBLIC, R421. -/
  | pkKemPublic (r : Req)
  /-- RSA_KEYGEN, R410. -/
  | rsaKeygen (r : Req)
  /-- RSA_KEYGEN_RESULT, R424. -/
  | rsaKeygenResult (r : Req)
  /-- PK_INFO, R393. -/
  | pkInfo (r : Req)
  -- class 0x07 (R472)
  /-- JOURNAL_APPEND, R445. -/
  | journalAppend (r : Req)
  /-- JOURNAL_STATUS, R472. -/
  | journalStatus (r : Req)
  /-- JOURNAL_HEAD, R437. -/
  | journalHead (r : Req)
  /-- JOURNAL_EXPORT, R458. -/
  | journalExport (r : Req)
  /-- EXPORT_CHUNK, R459. -/
  | exportChunk (r : Req)
  /-- SEGMENT_READ, R473. -/
  | segmentRead (r : Req)
  /-- RECEIPT_SUBMIT, R460. -/
  | receiptSubmit (r : Req)
  /-- TRACE_READ, R472. -/
  | traceRead (r : Req)
  -- classes 0x08 and 0x09 (R113)
  /-- TIME_READ, R113. -/
  | timeRead (r : Req)
  /-- TIME_ADJUST, R80. -/
  | timeAdjust (r : Req)
  /-- TIME_AUTH_CHALLENGE, R87. -/
  | timeAuthChallenge (r : Req)
  /-- TIME_AUTH_ADJUST, R88. -/
  | timeAuthAdjust (r : Req)
  /-- TIME_CONFIRM, R114. -/
  | timeConfirm (r : Req)
  /-- TIME_ALARM_SET, R118. -/
  | timeAlarmSet (r : Req)
  /-- DISTANCE_READ, R90. -/
  | distanceRead (r : Req)
  /-- GNSS_FEED, R95. -/
  | gnssFeed (r : Req)
  /-- COUNTER_ALLOCATE, R116. -/
  | counterAllocate (r : Req)
  /-- COUNTER_RELEASE, R116. -/
  | counterRelease (r : Req)
  /-- COUNTER_READ, R99. -/
  | counterRead (r : Req)
  /-- COUNTER_INCREMENT, R101. -/
  | counterIncrement (r : Req)
  -- class 0x0A (R515)
  /-- TAMPER_STATUS, R514. -/
  | tamperStatus (r : Req)
  /-- TAMPER_SOURCES, R515. -/
  | tamperSources (r : Req)
  /-- TAMPER_INJECT, R516. -/
  | tamperInject (r : Req)
  -- class 0x0B (R538)
  /-- ATTEST_CERT, R538. -/
  | attestCert (r : Req)
  /-- ATTEST_STATEMENT, R523; the output check of R416 on both tries. -/
  | attestStatement (r : Req) (outputOk : Bool)
  /-- CHALLENGE_RESPOND, R525. -/
  | challengeRespond (r : Req)
  /-- ATTEST_KEYGEN, R517. -/
  | attestKeygen (r : Req)
  /-- ATTEST_CERT_WRITE, R518. -/
  | attestCertWrite (r : Req)
  /-- VERIFIER_SECRET_EXPORT, R524. -/
  | verifierSecretExport (r : Req)
  -- class 0x0C (R572)
  /-- PATTERN_READ, R573. -/
  | patternRead (r : Req)
  /-- PATTERN_WRITE, R547. -/
  | patternWrite (r : Req)
  /-- PATTERN_STORE, R551. -/
  | patternStore (r : Req)
  /-- PATTERN_REVERT, R556. -/
  | patternRevert (r : Req)
  /-- PATTERN_DISCARD, R546. -/
  | patternDiscard (r : Req)
  /-- PATTERN_INFO, R572. -/
  | patternInfo (r : Req)
  -- class 0x0D (R606, R148)
  /-- BOOT_PUSH, R149. -/
  | bootPush (r : Req)
  /-- FW_STAGE_OPEN, R587. -/
  | fwStageOpen (r : Req)
  /-- FW_STAGE_CHUNK, R584; `flashOk` is the flash status poll (R603). -/
  | fwStageChunk (r : Req) (flashOk : Bool)
  /-- FW_LOAD, R589. -/
  | fwLoad (r : Req)
  /-- FW_HANDOVER, R591. -/
  | fwHandover (r : Req)
  /-- FW_VERSION_COMMIT, R599; `fuse` as in LIFECYCLE_ADVANCE. -/
  | fwVersionCommit (r : Req) (fuse : FuseEnd)
  /-- FW_STATUS, R606. -/
  | fwStatus (r : Req)
  /-- FW_RESTART, R606. -/
  | fwRestart (r : Req)
  /-- LOG_READ, R606. -/
  | logRead (r : Req)
  -- class 0x0E (R285, R286)
  /-- LONG_STATUS, R287. -/
  | longStatus (r : Req)
  /-- LONG_SUSPEND, R269. -/
  | longSuspend (r : Req)
  /-- LONG_RESUME, R286. -/
  | longResume (r : Req)
  /-- LONG_CANCEL, R269. -/
  | longCancel (r : Req)
  /-- LONG_RELEASE, R272. -/
  | longRelease (r : Req)
  /-- LONG_LIST, R285. -/
  | longList (r : Req)
  -- class 0x0F (R682)
  /-- APPLET_LOAD, R675. -/
  | appletLoad (r : Req)
  /-- APPLET_UNLOAD, R679. -/
  | appletUnload (r : Req)
  /-- APPLET_CALL, R666. -/
  | appletCall (r : Req)
  /-- APPLET_RESULT, R682. -/
  | appletResult (r : Req)
  /-- APPLET_TRIGGER, R683. -/
  | appletTrigger (r : Req)
  /-- APPLET_STATUS, R682. -/
  | appletStatus (r : Req)
  /-- APPLET_LIST, R682. -/
  | appletList (r : Req)
  -- class 0x10 (R651)
  /-- MGMT_INFO, R651. -/
  | mgmtInfo (r : Req)
  /-- MGMT_SENSORS, R651. -/
  | mgmtSensors (r : Req)
  /-- MGMT_HEALTH_READ, R651. -/
  | mgmtHealthRead (r : Req)
  /-- MGMT_LOG_READ, R651. -/
  | mgmtLogRead (r : Req)
  /-- MGMT_POWER, R619. -/
  | mgmtPower (r : Req)
  /-- MGMT_ADDRESS, R607. -/
  | mgmtAddress (r : Req)
  /-- MGMT_FENCE, R625. -/
  | mgmtFence (r : Req)
  /-- MGMT_UNFENCE, R626; the unit's known-answer test passes. -/
  | mgmtUnfence (r : Req) (passed : Bool)
  /-- MGMT_BUNDLE_PUSH, R622. -/
  | mgmtBundlePush (r : Req)
  /-- MGMT_RESTART, R651. -/
  | mgmtRestart (r : Req)
  -- class 0x11 (R651)
  /-- SUCC_CHALLENGE, R651. -/
  | succChallenge (r : Req)
  /-- SUCC_OFFER, R638. -/
  | succOffer (r : Req)
  /-- SUCC_BEGIN, R633. -/
  | succBegin (r : Req)
  /-- SUCC_PACKAGE_READ, R635. -/
  | succPackageRead (r : Req)
  /-- SUCC_RECEIVE, R638. -/
  | succReceive (r : Req)
  /-- SUCC_COMMIT, R639; `fuse` as in LIFECYCLE_ADVANCE. -/
  | succCommit (r : Req) (fuse : FuseEnd)
  /-- SUCC_DEPARTURE_READ, R640. -/
  | succDepartureRead (r : Req)
  /-- SUCC_ACTIVATE, R642. -/
  | succActivate (r : Req)
  /-- SUCC_RELEASE, R644. -/
  | succRelease (r : Req)
  /-- SUCC_ABORT, R648. -/
  | succAbort (r : Req)
  /-- SUCC_CLOSE, R643. -/
  | succClose (r : Req)
  /-- SUCCESSION_TRANSIT, R637. -/
  | successionTransit (r : Req)
  /-- SUCCESSION_INHERIT, R643. -/
  | successionInherit (r : Req)
  /-- SUCC_STATUS, R651. -/
  | succStatus (r : Req)
  -- link events
  /-- REQUEST_FRAME: FRAME_WRITE words at a word offset of port p's frame (R191, R194). -/
  | requestFrame (p : Port) (offset : Nat) (words : List Word)
  /-- REPLY_RELEASE with the tag of the head reply (R177, R198). -/
  | replyRelease (p : Port) (tag : BitVec 16)
  /-- ABORT_RX written to PORT_CONTROL (R193). -/
  | abortRx (p : Port)
  /-- REG_WRITE of one word at a register index (R176, R608). -/
  | regWrite (f : RegFile) (index : Byte) (value : Word)
  /-- PARTIAL_FRAME_TIMEOUT, R193. -/
  | partialFrameTimeout (p : Port)
  /-- REPLY_ENQUEUE: the oldest completed reply of port p enters its ring (R202). -/
  | replyEnqueue (p : Port)
  /-- REFUSAL_DELIVERY of the held refusal of command `id`; `armed` says the 40 us timer could be armed (R709, R717). -/
  | refusalDelivery (id : Nat) (armed : Bool)
  /-- SESSION_OPEN_REPLY of command `id` (R208). -/
  | sessionOpenReply (id : Nat)
  /-- CHALLENGE_REPLY of command `id` (R529). -/
  | challengeReply (id : Nat)
  /-- SUBMIT in PKT_CONTROL (R612, R613). -/
  | submit
  /-- ABORT in PKT_CONTROL (R612). -/
  | abort
  /-- RELEASE in PKT_CONTROL (R612). -/
  | release
  /-- PKT_WINDOW_WRITE of one word (R612). -/
  | pktWindowWrite (value : Word)
  /-- PKT_WINDOW_READ of one word (R612). -/
  | pktWindowRead
  /-- MGMT_TRANSACTION_TIMEOUT, R63. -/
  | mgmtTransactionTimeout
  /-- MGMT_LOCKOUT_END, R649. -/
  | mgmtLockoutEnd
  -- power and reset
  /-- POWER_UP; `kept` says the always-on domain kept its state on VBAT (R40, R76). -/
  | powerUp (kept : Bool)
  /-- CRYSTAL_START_TIMEOUT, R59. -/
  | crystalStartTimeout
  /-- BOOT_ROM_FLOW, R143. -/
  | bootRomFlow (b : BootIn)
  /-- WAIT_HOST_TIMEOUT, R151. -/
  | waitHostTimeout
  /-- FACTORY_TEST_COMMAND over JTAG (R119). -/
  | factoryTestCommand
  /-- RESET_PIN: the low pulse's length in ns, and which of R43's two outcomes a pulse of 200 ns to 1 us has. -/
  | resetPin (ns : Nat) (taken : Bool)
  /-- PF_N_WARNING: the low pulse's length in ns, and R45's open outcome. -/
  | pfNWarning (ns : Nat) (taken : Bool)
  /-- PF_N_RESUME, R50. -/
  | pfNResume
  /-- BACKUP_ENTRY, R39; `warned` says PF_N was recognised before, `inPhase2` that an unwarned cut fell inside phase 2 (R718). -/
  | backupEntry (warned inPhase2 : Bool)
  /-- VDDIO_RISE to a settled level in mV (R34). -/
  | vddioRise (g : Rail) (mv : Nat)
  /-- VDDIO_LOSS, R58. -/
  | vddioLoss (g : Rail)
  /-- IDLE_ENTRY, R52. -/
  | idleEntry
  /-- IDLE_STANDBY_EXPIRY, R620. -/
  | idleStandbyExpiry
  /-- HIBERNATE_WAKE, R53. -/
  | hibernateWake (w : WakeSource)
  /-- THERMAL_THROTTLE: the hottest junction temperature in 1/16 degC (R54). -/
  | thermalThrottle (temp : Int)
  /-- THERMAL_SHUTDOWN, R55. -/
  | thermalShutdown (temp : Int)
  /-- THERMAL_RESTART, R56. -/
  | thermalRestart (temp : Int)
  -- time and distance events
  /-- LEGAL_TICK, R67, R71. -/
  | legalTick
  /-- TICK_CHECKPOINT; whether the write can be committed (R75). -/
  | tickCheckpoint (ok : Bool)
  /-- CLOCK_CHECK, R69. -/
  | clockCheck (c : ClockResult)
  /-- CRYSTAL_STOP, R73. -/
  | crystalStop
  /-- CRYSTAL_RETURN, R72. -/
  | crystalReturn
  /-- SPD_PULSE: consecutive samples read low and then high, and the sample period at which the second passed (R89, R719). -/
  | spdPulse (low high at' : Nat)
  /-- SPEED_GATE at sample period `now` (R92). -/
  | speedGate (now : Nat)
  /-- STANDSTILL_TIMEOUT, R93, at sample period `now`. -/
  | standstillTimeout (now : Nat)
  /-- TRACE_SAMPLE, R450. -/
  | traceSample
  /-- TRACE_MIRROR, R453. -/
  | traceMirror
  /-- BUCKET_REFILL, R103. -/
  | bucketRefill
  /-- TICK_ALARM of a tenant (R118). -/
  | tickAlarm (t : Byte)
  -- scheduler and engine events
  /-- ENGINE_WINDOW, R243. -/
  | engineWindow
  /-- DEADLINE_EXPIRY of command `id` (R258). -/
  | deadlineExpiry (id : Nat)
  /-- FLACON_STAGE for queued command `id` (R274). -/
  | flaconStage (id : Nat)
  /-- CACHE_ZEROISE_END: one entry's read-back (R328, R329). -/
  | cacheZeroiseEnd (passed : Bool)
  /-- LANE_QUANTUM_END: the lane, its measured run in us, the block at which the two final rounds differ if any (R252, R370). -/
  | laneQuantumEnd (lane : Fin 9) (us : Nat) (mismatch : Option Nat)
  /-- PK_PROGRAM_END: the engine, and whether the output checks of R416 pass (R391). -/
  | pkProgramEnd (e : Fin 2) (outputOk : Bool)
  /-- NONCE_RESERVATION_COMMIT of the waiting command `id` (R348, R384). -/
  | nonceReservationCommit (id : Nat) (ok : Bool)
  /-- NVM_COMMIT_END, R718. -/
  | nvmCommitEnd (e : WriteEnd)
  /-- LONG_SUSPENSION_POINT of a handle (R269). -/
  | longSuspensionPoint (h : BitVec 24)
  /-- SUSPEND_LIMIT_EXPIRY of a handle (R271). -/
  | suspendLimitExpiry (h : BitVec 24)
  /-- HANDLE_EXPIRY of a handle (R272). -/
  | handleExpiry (h : BitVec 24)
  /-- SESSION_IDLE_TIMEOUT of a session id on a port (R221). -/
  | sessionIdleTimeout (p : Port) (sid : Byte)
  /-- LANE_KAT, R374. -/
  | laneKat (lane : Fin 9) (passed : Bool)
  /-- HASH_KAT, R378. -/
  | hashKat (u : Fin 4) (passed : Bool)
  /-- PK_KAT, R418. -/
  | pkKat (e : Fin 2) (passed : Bool)
  /-- RANDOM_HEALTH_FAIL, R383. -/
  | randomHealthFail
  /-- WATCHDOG_EXPIRY of SEC, PMC or SCH (R141). -/
  | watchdogExpiry (w : CoreLapse)
  /-- CLUSTER_WATCHDOG_EXPIRY, R141, R623. -/
  | clusterWatchdogExpiry (w : ClusterLapse)
  /-- PROTECTION_FAULT of a subject at an address (R577). -/
  | protectionFault (who : Subject) (addr : Word)
  /-- NVM_SCRUB of one row (R627). -/
  | nvmScrub (row : Nat) (area : RowArea) (f : ScrubFinding)
  -- journal and pattern events
  /-- JOURNAL_FOLD, R461. -/
  | journalFold
  /-- PATTERN_SWITCH, R552. -/
  | patternSwitch
  -- tamper events
  /-- TAMPER_CONFIRM of a sampled source with its VALUE (R476). -/
  | tamperConfirm (src : Source) (value : BitVec 24)
  /-- TAMPER_CLEAR, R476. -/
  | tamperClear (src : Source)
  /-- TAMPER_EVENT of an event source (R477). -/
  | tamperEvent (src : Source) (value : BitVec 24)
  /-- VDD_UNDER_HOLD_EXPIRY, R479. -/
  | vddUnderHoldExpiry
  /-- TAMPER_RESPONSE_SEQUENCE, R491: how the programming of group 5 ends (R492); `cut` says a loss of power ends the sequence
  (R493). -/
  | tamperResponseSequence (fuse : FuseEnd) (cut : Bool)
  /-- TAMPER_HOLD_END, R487. -/
  | tamperHoldEnd
  /-- SENSOR_SELF_CHECK: the front ends that fail, with the value their alarm reads (R509). -/
  | sensorSelfCheck (failing : List (Source × BitVec 24))
  /-- FUSE_RESENSE after the junction reached a temperature in 1/16 degC (R136). -/
  | fuseResense (temp : Int) (reads : List FuseRead)
  -- handover and succession events
  /-- HANDOVER_SEAM_POINT, R591. -/
  | handoverSeamPoint
  /-- HANDOVER_QUIESCE_TIMEOUT, R591. -/
  | handoverQuiesceTimeout
  /-- HANDOVER_ADOPTION: the failure reason the new image reports, 0 for none, and the pause in us (R594, R596). -/
  | handoverAdoption (reason : Byte) (pause : Nat)
  /-- HANDOVER_MONITOR_TIMEOUT, R593. -/
  | handoverMonitorTimeout
  /-- SUCCESSION_TIMEOUT, R646. -/
  | successionTimeout
  -- applet events
  /-- APPLET_TIMER_TRIGGER, R665. -/
  | appletTimerTrigger (a : AppletRef)
  /-- APPLET_ACTIVATION_START, R654. -/
  | appletActivationStart (a : AppletRef)
  /-- FUEL_CHECKPOINT, R671. -/
  | fuelCheckpoint (a : AppletRef)
  /-- SERVICE_CALL_RETURN, R664. -/
  | serviceCallReturn (a : AppletRef)
  -- applet machine instructions (R656)
  | nop (a : AppletRef)
  | halt (a : AppletRef)
  | trap (a : AppletRef) (imm : BitVec 14)
  | add (a : AppletRef) (rd ra rb : BitVec 4)
  | sub (a : AppletRef) (rd ra rb : BitVec 4)
  | and (a : AppletRef) (rd ra rb : BitVec 4)
  | or (a : AppletRef) (rd ra rb : BitVec 4)
  | xor (a : AppletRef) (rd ra rb : BitVec 4)
  | shl (a : AppletRef) (rd ra rb : BitVec 4)
  | shr (a : AppletRef) (rd ra rb : BitVec 4)
  | sar (a : AppletRef) (rd ra rb : BitVec 4)
  | mul (a : AppletRef) (rd ra rb : BitVec 4)
  | mulhu (a : AppletRef) (rd ra rb : BitVec 4)
  | divu (a : AppletRef) (rd ra rb : BitVec 4)
  | remu (a : AppletRef) (rd ra rb : BitVec 4)
  | slt (a : AppletRef) (rd ra rb : BitVec 4)
  | sltu (a : AppletRef) (rd ra rb : BitVec 4)
  | addi (a : AppletRef) (rd ra : BitVec 4) (imm : BitVec 10)
  | andi (a : AppletRef) (rd ra : BitVec 4) (imm : BitVec 10)
  | ori (a : AppletRef) (rd ra : BitVec 4) (imm : BitVec 10)
  | xori (a : AppletRef) (rd ra : BitVec 4) (imm : BitVec 10)
  | shli (a : AppletRef) (rd ra : BitVec 4) (imm : BitVec 10)
  | shri (a : AppletRef) (rd ra : BitVec 4) (imm : BitVec 10)
  | sari (a : AppletRef) (rd ra : BitVec 4) (imm : BitVec 10)
  | slti (a : AppletRef) (rd ra : BitVec 4) (imm : BitVec 10)
  | sltiu (a : AppletRef) (rd ra : BitVec 4) (imm : BitVec 10)
  | ldi (a : AppletRef) (rd : BitVec 4) (imm : BitVec 14)
  | ldx (a : AppletRef) (rd : BitVec 4) (imm : BitVec 14)
  | ld (a : AppletRef) (rd ra : BitVec 4) (imm : BitVec 10)
  | st (a : AppletRef) (rd ra : BitVec 4) (imm : BitVec 10)
  | ldb (a : AppletRef) (rd ra : BitVec 4) (imm : BitVec 10)
  | stb (a : AppletRef) (rd ra : BitVec 4) (imm : BitVec 10)
  | beqz (a : AppletRef) (ra : BitVec 4) (ofs : BitVec 14)
  | bnez (a : AppletRef) (ra : BitVec 4) (ofs : BitVec 14)
  | bltz (a : AppletRef) (ra : BitVec 4) (ofs : BitVec 14)
  | bgez (a : AppletRef) (ra : BitVec 4) (ofs : BitVec 14)
  | beq (a : AppletRef) (rd ra : BitVec 4) (ofs : BitVec 10)
  | bne (a : AppletRef) (rd ra : BitVec 4) (ofs : BitVec 10)
  | blt (a : AppletRef) (rd ra : BitVec 4) (ofs : BitVec 10)
  | bltu (a : AppletRef) (rd ra : BitVec 4) (ofs : BitVec 10)
  | jmp (a : AppletRef) (target : BitVec 15)
  | call (a : AppletRef) (target : BitVec 15)
  | jr (a : AppletRef) (ra : BitVec 4)
  | callr (a : AppletRef) (ra : BitVec 4)
  | svc (a : AppletRef) (opcode : BitVec 16)
  | tick (a : AppletRef) (rd : BitVec 4)
  | fuel (a : AppletRef) (rd : BitVec 4)
  | rand (a : AppletRef) (rd : BitVec 4)
  -- test access port (R684-R704)
  /-- EXTEST, R689. -/
  | extest
  /-- SAMPLE/PRELOAD, R704. -/
  | samplePreload
  /-- IDCODE, R703. -/
  | idcode
  /-- CLAMP, R689. -/
  | clamp
  /-- HIGHZ, R689. -/
  | highz
  /-- DBG_SELECT, R687. -/
  | dbgSelect
  /-- BYPASS, or any reserved instruction value, R685. -/
  | bypass
  /-- TEST_LOGIC_RESET, R688. -/
  | testLogicReset
  /-- DBG request NOP (or a reserved REQ value) to a CORE code, R701. -/
  | dbgNop (req core : BitVec 4)
  /-- DBG request READ, R690. -/
  | dbgRead (core : BitVec 4) (addr : BitVec 24)
  /-- DBG request WRITE, R691. -/
  | dbgWrite (core : BitVec 4) (addr : BitVec 24) (data : Word)
  /-- DBG request HALT; `atomic` says the core is inside an atomic region (R692). -/
  | dbgHalt (core : BitVec 4) (atomic : Bool)
  /-- The held halt's end: the region ended within 50 us, or not (R692). -/
  | dbgHaltDeferred (ended : Bool)
  /-- DBG request RESUME, R688. -/
  | dbgResume (core : BitVec 4)
  /-- DBG request STEP, R686. -/
  | dbgStep (core : BitVec 4)
  /-- DBG request STATUS, R701. -/
  | dbgStatus (core : BitVec 4)
  /-- BOOT_PUSH_STALL_TIMEOUT, R151. -/
  | bootPushStallTimeout
  /-- LINK_ERROR: a reserved instruction, a mismatched complement byte or a FRAME_WRITE at a wrong offset (R173, R174, R192). -/
  | linkError (p : Port)
  deriving DecidableEq, Repr

end Sys2Proof
end

