-- ==== Sys2Proof/Decode.lean ====
section
/-! DEFINITION. The bit encodings the spec gives: the applet machine's 24-bit instructions (R656, R657), decoded and encoded. The rows
of the opcode table give no bits, so no word spells a command. -/
namespace Sys2Proof

-- Formats (instruction formats table)

def encR (op : BitVec 6) (rd ra rb : BitVec 4) : BitVec 24 := op ++ rd ++ ra ++ rb ++ 0#6

def encI (op : BitVec 6) (rd ra : BitVec 4) (imm : BitVec 10) : BitVec 24 := op ++ rd ++ ra ++ imm

def encL (op : BitVec 6) (rd : BitVec 4) (imm : BitVec 14) : BitVec 24 := op ++ rd ++ imm

def encJ (op : BitVec 6) (target : BitVec 15) : BitVec 24 := op ++ 0#3 ++ target

def encS (op : BitVec 6) (opcode : BitVec 16) : BitVec 24 := op ++ 0#2 ++ opcode

def fOp (w : BitVec 24) : BitVec 6 := w.extractLsb' 18 6
def fRd (w : BitVec 24) : BitVec 4 := w.extractLsb' 14 4
def fRa (w : BitVec 24) : BitVec 4 := w.extractLsb' 10 4
def fRb (w : BitVec 24) : BitVec 4 := w.extractLsb' 6 4
def fImm10 (w : BitVec 24) : BitVec 10 := w.extractLsb' 0 10
def fImm14 (w : BitVec 24) : BitVec 14 := w.extractLsb' 0 14
def fTarget (w : BitVec 24) : BitVec 15 := w.extractLsb' 0 15
def fOpcode (w : BitVec 24) : BitVec 16 := w.extractLsb' 0 16

/-- The encoding of an applet instruction. -/
def encodeApplet : AppletInstr → BitVec 24
  | .nop => encR 0x00 0 0 0
  | .halt => encR 0x01 0 0 0
  | .trap imm => encL 0x02 0 imm
  | .add rd ra rb => encR 0x04 rd ra rb
  | .sub rd ra rb => encR 0x05 rd ra rb
  | .and rd ra rb => encR 0x06 rd ra rb
  | .or rd ra rb => encR 0x07 rd ra rb
  | .xor rd ra rb => encR 0x08 rd ra rb
  | .shl rd ra rb => encR 0x09 rd ra rb
  | .shr rd ra rb => encR 0x0A rd ra rb
  | .sar rd ra rb => encR 0x0B rd ra rb
  | .mul rd ra rb => encR 0x0C rd ra rb
  | .mulhu rd ra rb => encR 0x0D rd ra rb
  | .divu rd ra rb => encR 0x0E rd ra rb
  | .remu rd ra rb => encR 0x0F rd ra rb
  | .slt rd ra rb => encR 0x10 rd ra rb
  | .sltu rd ra rb => encR 0x11 rd ra rb
  | .addi rd ra imm => encI 0x14 rd ra imm
  | .andi rd ra imm => encI 0x15 rd ra imm
  | .ori rd ra imm => encI 0x16 rd ra imm
  | .xori rd ra imm => encI 0x17 rd ra imm
  | .shli rd ra imm => encI 0x18 rd ra imm
  | .shri rd ra imm => encI 0x19 rd ra imm
  | .sari rd ra imm => encI 0x1A rd ra imm
  | .slti rd ra imm => encI 0x1B rd ra imm
  | .sltiu rd ra imm => encI 0x1C rd ra imm
  | .ld rd ra imm => encI 0x20 rd ra imm
  | .st rd ra imm => encI 0x21 rd ra imm
  | .ldb rd ra imm => encI 0x22 rd ra imm
  | .stb rd ra imm => encI 0x23 rd ra imm
  | .beq rd ra imm => encI 0x2C rd ra imm
  | .bne rd ra imm => encI 0x2D rd ra imm
  | .blt rd ra imm => encI 0x2E rd ra imm
  | .bltu rd ra imm => encI 0x2F rd ra imm
  | .ldi rd imm => encL 0x1D rd imm
  | .ldx rd imm => encL 0x1E rd imm
  | .beqz ra ofs => encL 0x28 ra ofs
  | .bnez ra ofs => encL 0x29 ra ofs
  | .bltz ra ofs => encL 0x2A ra ofs
  | .bgez ra ofs => encL 0x2B ra ofs
  | .jmp target => encJ 0x30 target
  | .call target => encJ 0x31 target
  | .jr ra => encR 0x32 0 ra 0
  | .callr ra => encR 0x33 0 ra 0
  | .svc opcode => encS 0x38 opcode
  | .tick rd => encR 0x39 rd 0 0
  | .fuel rd => encR 0x3A rd 0 0
  | .rand rd => encR 0x3B rd 0 0

/-- The required-zero bits of each format, low part first. -/
def zeroLow (w : BitVec 24) : Bool := w.extractLsb' 0 6 == 0

def noOperands (w : BitVec 24) : Bool := w.extractLsb' 0 18 == 0

/-- The instruction a word stands for in an applet: none for a reserved opcode or a nonzero bit that the format requires to be zero (R657). -/
def decodeApplet (w : BitVec 24) : Option AppletInstr :=
  let r (f : BitVec 4 → BitVec 4 → BitVec 4 → AppletInstr) : Option AppletInstr :=
    if zeroLow w then some (f (fRd w) (fRa w) (fRb w)) else none
  let i (f : BitVec 4 → BitVec 4 → BitVec 10 → AppletInstr) : Option AppletInstr := some (f (fRd w) (fRa w) (fImm10 w))
  match (fOp w).toNat with
  | 0x00 => if noOperands w then some .nop else none
  | 0x01 => if noOperands w then some .halt else none
  | 0x02 => if fRd w == 0 then some (.trap (fImm14 w)) else none
  | 0x04 => r .add
  | 0x05 => r .sub
  | 0x06 => r .and
  | 0x07 => r .or
  | 0x08 => r .xor
  | 0x09 => r .shl
  | 0x0A => r .shr
  | 0x0B => r .sar
  | 0x0C => r .mul
  | 0x0D => r .mulhu
  | 0x0E => r .divu
  | 0x0F => r .remu
  | 0x10 => r .slt
  | 0x11 => r .sltu
  | 0x14 => i .addi
  | 0x15 => i .andi
  | 0x16 => i .ori
  | 0x17 => i .xori
  | 0x18 => i .shli
  | 0x19 => i .shri
  | 0x1A => i .sari
  | 0x1B => i .slti
  | 0x1C => i .sltiu
  | 0x20 => i .ld
  | 0x21 => i .st
  | 0x22 => i .ldb
  | 0x23 => i .stb
  | 0x2C => i .beq
  | 0x2D => i .bne
  | 0x2E => i .blt
  | 0x2F => i .bltu
  | 0x1D => some (.ldi (fRd w) (fImm14 w))
  | 0x1E => some (.ldx (fRd w) (fImm14 w))
  | 0x28 => some (.beqz (fRd w) (fImm14 w))
  | 0x29 => some (.bnez (fRd w) (fImm14 w))
  | 0x2A => some (.bltz (fRd w) (fImm14 w))
  | 0x2B => some (.bgez (fRd w) (fImm14 w))
  | 0x30 => if w.extractLsb' 15 3 == 0 then some (.jmp (fTarget w)) else none
  | 0x31 => if w.extractLsb' 15 3 == 0 then some (.call (fTarget w)) else none
  | 0x32 => if fRd w == 0 && fRb w == 0 && zeroLow w then some (.jr (fRa w)) else none
  | 0x33 => if fRd w == 0 && fRb w == 0 && zeroLow w then some (.callr (fRa w)) else none
  | 0x38 => if w.extractLsb' 16 2 == 0 then some (.svc (fOpcode w)) else none
  | 0x39 => if w.extractLsb' 0 14 == 0 then some (.tick (fRd w)) else none
  | 0x3A => if w.extractLsb' 0 14 == 0 then some (.fuel (fRd w)) else none
  | 0x3B => if w.extractLsb' 0 14 == 0 then some (.rand (fRd w)) else none
  | _ => none

/-- The command that a table word spells: the spec's table gives no row any bits, so none does (log 1). -/
def decodeTableWord (_nbits _w : Nat) : Option Instr := none

end Sys2Proof
end

