-- ==== Sys2Proof/Machine/Bits.lean ====
section
/-! DEFINITION. Bit fields, byte order and big-endian byte strings (R3-R6, R397). -/
namespace Sys2Proof.Machine

/-- Bits hi..lo of a word, as a number. -/
def fld (w : Word) (hi lo : Nat) : Nat := w.toNat / 2 ^ lo % 2 ^ (hi + 1 - lo)

/-- Bit i of a word. -/
def bitOf (w : Word) (i : Nat) : Bool := w.toNat / 2 ^ i % 2 == 1

/-- A word from fields: each entry is the field's high bit, low bit and value; the value is cut to the field. -/
def mkWord (fs : List (Nat × Nat × Nat)) : Word :=
  BitVec.ofNat 48 (fs.foldl (fun acc f => acc + f.2.2 % 2 ^ (f.1 + 1 - f.2.1) * 2 ^ f.2.1) 0)

/-- A word with bits hi..lo replaced. -/
def setFld (w : Word) (hi lo v : Nat) : Word :=
  BitVec.ofNat 48 (w.toNat - fld w hi lo * 2 ^ lo + v % 2 ^ (hi + 1 - lo) * 2 ^ lo)

def word (n : Nat) : Word := BitVec.ofNat 48 n

def flag (b : Bool) : Nat := if b then 1 else 0

def ceilDiv (a b : Nat) : Nat := (a + b - 1) / b

/-- The six wire bytes of a word, least significant first (R5). -/
def wordBytes (w : Word) : List Byte :=
  [BitVec.ofNat 8 w.toNat, BitVec.ofNat 8 (w.toNat / 2 ^ 8), BitVec.ofNat 8 (w.toNat / 2 ^ 16),
   BitVec.ofNat 8 (w.toNat / 2 ^ 24), BitVec.ofNat 8 (w.toNat / 2 ^ 32), BitVec.ofNat 8 (w.toNat / 2 ^ 40)]

/-- Wire bytes of words, lowest-addressed word first (R6). -/
def wordsBytes (ws : List Word) : List Byte := ws.flatMap wordBytes

/-- Number with the first byte least significant. -/
def leNat : List Byte → Nat
  | [] => 0
  | b :: bs => b.toNat + 256 * leNat bs

/-- Number with the first byte most significant. -/
def beNat (bs : List Byte) : Nat := bs.foldl (fun acc b => acc * 256 + b.toNat) 0

/-- n big-endian bytes of a number. -/
def beBytes : Nat → Nat → List Byte
  | 0, _ => []
  | n + 1, v => BitVec.ofNat 8 (v / 256 ^ n) :: beBytes n v

/-- Words filled from wire byte 0, the last padded with zero bytes (R379, R421). -/
def bytesWordsN : Nat → List Byte → List Word
  | 0, _ => []
  | n + 1, bs => word (leNat (bs.take 6)) :: bytesWordsN n (bs.drop 6)

def bytesWords (bs : List Byte) : List Word := bytesWordsN (ceilDiv bs.length 6) bs

/-- A byte string cut or zero-padded to n bytes. -/
def fit (n : Nat) (bs : List Byte) : List Byte := (bs ++ List.replicate n 0).take n

/-- Words cut or zero-padded to n words. -/
def fitW (n : Nat) (ws : List Word) : List Word := (ws ++ List.replicate n 0).take n

def slice {α : Type} (l : List α) (start n : Nat) : List α := (l.drop start).take n

def wd (ws : List Word) (i : Nat) : Word := ws.getD i 0

/-- Bytes of a text label, by the ASCII codes of its characters. -/
def ascii (s : List Nat) : List Byte := s.map (BitVec.ofNat 8)

def xorBytes (a b : List Byte) : List Byte := List.zipWith (· ^^^ ·) a b

/-- Sign extension of an n-bit field to a word. -/
def sextTo (n v : Nat) : Word := if v / 2 ^ (n - 1) % 2 == 1 then word (2 ^ 48 - 2 ^ n + v) else word v

/-- A word read as a two's complement number. -/
def sInt (w : Word) : Int := w.toInt

def intWord (i : Int) : Word := BitVec.ofInt 48 i

def b24 (w : Word) : BitVec 24 := BitVec.ofNat 24 w.toNat

/-- Replaces the i-th element. -/
def setAt {α : Type} (l : List α) (i : Nat) (x : α) : List α := l.set i x

/-- Updates the i-th element. -/
def modAt {α : Type} (l : List α) (i : Nat) (f : α → α) : List α := l.mapIdx (fun j x => if j == i then f x else x)

/-- Updates every element that satisfies p. -/
def modWhere {α : Type} (p : α → Bool) (f : α → α) (l : List α) : List α := l.map (fun x => if p x then f x else x)

end Sys2Proof.Machine
end

