-- ==== Sys2Proof/Machine/Crypto.lean ====
section
/-! DEFINITION. The symmetric standards the spec names and does not print (log 15): SHA-2 and SHA-3, AES with its modes,
the counter-mode KDF of R293 and the CRC of R190. PRESUMED from FIPS 180-4, 202, 197 and SP 800-38A to F, 800-108. -/
namespace Sys2Proof.Machine

-- CRC-32C (R190)

def crcStep : Nat → BitVec 32 → BitVec 32
  | 0, c => c
  | n + 1, c => crcStep n (if c.getLsbD 0 then (c >>> 1) ^^^ 0x82F63B78#32 else c >>> 1)

/-- CRC-32C: reflected polynomial 0x1EDC6F41, initial value and final XOR all ones (R190). -/
def crc32c (bs : List Byte) : BitVec 32 :=
  bs.foldl (fun c b => crcStep 8 (c ^^^ b.setWidth 32)) 0xFFFFFFFF#32 ^^^ 0xFFFFFFFF#32

-- SHA-2 (FIPS 180-4)

def shaK : Nat := 0x6c44198c4a4758175fcb6fab3ad6faec597f299cfc657e2a4cc5d4becb3e42b6431d67c49c100d4c3c9ebe0a15c9bebc32caab7b40c7249328db77f523047d841b710b35131c471b113f9804bef90dae0a637dc5a2c898a606f067aa72176fbaf57d4f7fee6ed178eada7dd6cde0eb1ed186b8c721c0c207ca273eceea26619cc67178f2e372532bbef9a3f7b2c67915a4506cebde82bde990befffa23631e288cc702081a6439ec84c87814a1f0ab7278a5636f43172f60748f82ee5defb2fc682e6ff3d6b2b8a35b9cca4f7763e3734ed8aa4ae3418acb391c0cb3c5c95a6334b0bcb5e19b48a82748774cdf8eeb991e376c085141ab5319a4c116b8d2d0c8106aa07032bbd1b8f40e35855771202ad69906245565a910d192e819d6ef5218c76c51a30654be30c24b8b70d0f89791a81a664bbc423001a2bfe8a14cf1036492722c851482353b81c2c92e47edaee6766a0abb3c77b2a8650a73548baf63de53380d139d95b3df4d2c6dfc5ac42aed2e1b21385c26c92627b70a8546d22ffc142929670a0e6e7006ca6351e003826fd5a79147930aa725c6e00bf33da88fc2bf597fc7beef0ee4b00327c898fb213fa831c66d2db43210983e5152ee66dfab76f988da831153b55cb0a9dcbd41fbd44a7484aa6ea6e4832de92c6f592b0275240ca1cc77ac9c650fc19dc68b8cd5b5efbe4786384f25e3e49b69c19ef14ad2c19bf174cf6926949bdc06a725c7123580deb1fe3b1696b172be5d74f27b896f550c7dc3d5ffb4e2243185be4ee4b28c12835b0145706fbed807aa98a3030242ab1c5ed5da6d8118923f82a4af194f9b59f111f1b605d0193956c25bf348b538e9b5dba58189dbbcb5c0fbcfec4d3b2f7137449123ef65cd428a2f98d728ae22

def shaInit512 : Nat := 0x5be0cd19137e21791f83d9abfb41bd6b9b05688c2b3e6c1f510e527fade682d1a54ff53a5f1d36f13c6ef372fe94f82bbb67ae8584caa73b6a09e667f3bcc908

def shaInit384 : Nat := 0x47b5481dbefa4fa4db0c2e0d64f98fa78eb44a876858151167332667ffc00b31152fecd8f70e59399159015a3070dd17629a292a367cd507cbbb9d5dc1059ed8

structure ShaParams (w : Nat) where
  rounds : Nat
  k : Nat → BitVec w
  s0 : Nat × Nat × Nat
  s1 : Nat × Nat × Nat
  e0 : Nat × Nat × Nat
  e1 : Nat × Nat × Nat

def sigSmall {w : Nat} (r : Nat × Nat × Nat) (x : BitVec w) : BitVec w :=
  x.rotateRight r.1 ^^^ x.rotateRight r.2.1 ^^^ (x >>> r.2.2)

def sigBig {w : Nat} (r : Nat × Nat × Nat) (x : BitVec w) : BitVec w :=
  x.rotateRight r.1 ^^^ x.rotateRight r.2.1 ^^^ x.rotateRight r.2.2

def sha256Params : ShaParams 32 where
  rounds := 64
  k i := BitVec.ofNat 32 (shaK >>> (64 * i + 32))
  s0 := (7, 18, 3)
  s1 := (17, 19, 10)
  e0 := (2, 13, 22)
  e1 := (6, 11, 25)

def sha512Params : ShaParams 64 where
  rounds := 80
  k i := BitVec.ofNat 64 (shaK >>> (64 * i))
  s0 := (1, 8, 7)
  s1 := (19, 61, 6)
  e0 := (28, 34, 39)
  e1 := (14, 18, 41)

/-- One round over the eight working variables and the sliding window of sixteen schedule words. -/
def shaRounds {w : Nat} (p : ShaParams w) : Nat → Nat → List (BitVec w) → List (BitVec w) → List (BitVec w)
  | 0, _, _, v => v
  | n + 1, i, win, v =>
    match v, win with
    | [a, b, c, d, e, f, g, h], w0 :: rest =>
      let t1 := h + sigBig p.e1 e + ((e &&& f) ^^^ (~~~e &&& g)) + p.k i + w0
      let t2 := sigBig p.e0 a + ((a &&& b) ^^^ (a &&& c) ^^^ (b &&& c))
      let wn := w0 + sigSmall p.s0 (rest.getD 0 0) + rest.getD 8 0 + sigSmall p.s1 (rest.getD 13 0)
      shaRounds p n (i + 1) (rest ++ [wn]) [t1 + t2, a, b, c, d + t1, e, f, g]
    | _, _ => v

def beChunks (w : Nat) : Nat → List Byte → List (BitVec w)
  | 0, _ => []
  | n + 1, bs => BitVec.ofNat w (beNat (bs.take (w / 8))) :: beChunks w n (bs.drop (w / 8))

def shaBlocks {w : Nat} (p : ShaParams w) : Nat → List Byte → List (BitVec w) → List (BitVec w)
  | 0, _, h => h
  | n + 1, bs, h =>
    shaBlocks p n (bs.drop (2 * w)) (List.zipWith (· + ·) h (shaRounds p p.rounds 0 (beChunks w 16 bs) h))

def shaPad (w : Nat) (bs : List Byte) : List Byte :=
  let blk := 2 * w
  let used := bs.length + 1 + w / 4
  bs ++ [0x80] ++ List.replicate (ceilDiv used blk * blk - used) 0 ++ beBytes (w / 4) (8 * bs.length)

def shaRun {w : Nat} (p : ShaParams w) (init : List (BitVec w)) (bs : List Byte) : List Byte :=
  let m := shaPad w bs
  (shaBlocks p (m.length / (2 * w)) m init).flatMap (fun x => beBytes (w / 8) x.toNat)

def initWords (t : Nat) : List (BitVec 64) := (List.range 8).map (fun i => BitVec.ofNat 64 (t >>> (64 * i)))

def sha256 (bs : List Byte) : List Byte :=
  shaRun sha256Params ((initWords shaInit512).map (fun x => BitVec.ofNat 32 (x.toNat >>> 32))) bs

def sha384 (bs : List Byte) : List Byte := (shaRun sha512Params (initWords shaInit384) bs).take 48

def sha512 (bs : List Byte) : List Byte := shaRun sha512Params (initWords shaInit512) bs

-- SHA-3 and SHAKE (FIPS 202)

def keccakRC : Nat := 0x8000000080008008000000008000000180000000000080808000000080008081800000008000000a000000000000800a8000000000000080800000000000800280000000000080038000000000008089800000000000008b000000008000808b000000008000000a00000000800080090000000000000088000000000000008a800000000000800980000000800080810000000080000001000000000000808b8000000080008000800000000000808a00000000000080820000000000000001

def keccakRot : List Nat := [0, 1, 62, 28, 27, 36, 44, 6, 55, 20, 3, 10, 43, 25, 39, 41, 45, 15, 21, 8, 18, 2, 61, 56, 14]

def lane64 (a : List (BitVec 64)) (x y : Nat) : BitVec 64 := a.getD (x % 5 + 5 * (y % 5)) 0

def keccakRound (i : Nat) (a : List (BitVec 64)) : List (BitVec 64) :=
  let col := (List.range 5).map (fun x => lane64 a x 0 ^^^ lane64 a x 1 ^^^ lane64 a x 2 ^^^ lane64 a x 3 ^^^ lane64 a x 4)
  let d := (List.range 5).map (fun x => col.getD ((x + 4) % 5) 0 ^^^ (col.getD ((x + 1) % 5) 0).rotateLeft 1)
  let a1 := (List.range 25).map (fun j => (a.getD j 0 ^^^ d.getD (j % 5) 0).rotateLeft (keccakRot.getD j 0))
  -- pi: new lane (y, 2x + 3y) is old lane (x, y), read from the new lane's side
  let b := (List.range 25).map (fun j => lane64 a1 (j % 5 + 3 * (j / 5)) (j % 5))
  let c := (List.range 25).map (fun j =>
    lane64 b (j % 5) (j / 5) ^^^ (~~~(lane64 b (j % 5 + 1) (j / 5)) &&& lane64 b (j % 5 + 2) (j / 5)))
  match c with
  | c0 :: rest => (c0 ^^^ BitVec.ofNat 64 (keccakRC >>> (64 * i))) :: rest
  | [] => []

def keccakF (a : List (BitVec 64)) : List (BitVec 64) := (List.range 24).foldl (fun s i => keccakRound i s) a

def leLanes : Nat → List Byte → List (BitVec 64)
  | 0, _ => []
  | n + 1, bs => BitVec.ofNat 64 (leNat (bs.take 8)) :: leLanes n (bs.drop 8)

/-- Absorbs whole blocks of `rate` bytes. -/
def keccakAbsorb (rate : Nat) : Nat → List Byte → List (BitVec 64) → List (BitVec 64)
  | 0, _, a => a
  | n + 1, bs, a =>
    keccakAbsorb rate n (bs.drop rate) (keccakF (List.zipWith (· ^^^ ·) a (leLanes (rate / 8) bs ++ List.replicate (25 - rate / 8) 0)))

def lanesBytes (a : List (BitVec 64)) : List Byte := a.flatMap (fun x => (beBytes 8 x.toNat).reverse)

/-- Squeezes n blocks of `rate` bytes. -/
def keccakSqueeze (rate : Nat) : Nat → List (BitVec 64) → List Byte
  | 0, _ => []
  | n + 1, a => (lanesBytes a).take rate ++ keccakSqueeze rate n (keccakF a)

/-- Padding from the domain suffix to a whole block (FIPS 202). -/
def keccakPad (rate : Nat) (suffix : Byte) (bs : List Byte) : List Byte :=
  let q := rate - bs.length % rate
  bs ++ (if q == 1 then [suffix ||| 0x80] else [suffix] ++ List.replicate (q - 2) 0 ++ [0x80])

/-- The sponge with a rate and a domain suffix: its first n output bytes. -/
def sponge (rate : Nat) (suffix : Byte) (n : Nat) (bs : List Byte) : List Byte :=
  let m := keccakPad rate suffix bs
  (keccakSqueeze rate (ceilDiv n rate) (keccakAbsorb rate (m.length / rate) m (List.replicate 25 0))).take n

def sha3_256 (bs : List Byte) : List Byte := sponge 136 0x06 32 bs
def sha3_512 (bs : List Byte) : List Byte := sponge 72 0x06 64 bs
def shake128 (n : Nat) (bs : List Byte) : List Byte := sponge 168 0x1F n bs
def shake256 (n : Nat) (bs : List Byte) : List Byte := sponge 136 0x1F n bs

-- AES (FIPS 197)

def aesSbox : Nat := 0x16bb54b00f2d99416842e6bf0d89a18cdf2855cee9871e9b948ed9691198f8e19e1dc186b95735610ef6034866b53e708a8bbd4b1f74dde8c6b4a61c2e2578ba08ae7a65eaf4566ca94ed58d6d37c8e779e4959162acd3c25c2406490a3a32e0db0b5ede14b8ee4688902a22dc4f816073195d643d7ea7c41744975fec130ccdd2f3ff1021dab6bcf5389d928f40a351a89f3c507f02f94585334d43fbaaefd0cf584c4a39becb6a5bb1fc20ed00d153842fe329b3d63b52a05a6e1b1a2c830975b227ebe28012079a059618c323c7041531d871f1e5a534ccf73f362693fdb7c072a49cafa2d4adf04759fa7dc982ca76abd7fe2b670130c56f6bf27b777c63

def aesInv : Nat := 0x7d0c2155631469e126d677ba7e042b17619953833cbbebc8b0f52aae4d3be0a0ef9cc9939f7ae52d0d4ab519a97f51605fec8027591012b131c7078833a8dd1ff45acd78fec0db9a2079d2c64b3e56fc1bbe18aa0e62b76f89c5291d711af1476edf751ce837f9e28535ade72274ac9673e6b4f0cecff297eadc674f4111913a6b8a130103bdafc1020f3fca8f1e2cd00645b3b80558e4f70ad3bc8c00abd890849d8da75746155edab9edfd5048706c92b6655dcc5ca4d41698688664f6f87225d18b6d49a25b76b224d92866a12e084ec3fa420b954cee3d23c2a632947b54cbe9dec444438e3487ff2f9b8239e37cfbd7f3819ea340bf38a53630d56a0952

def sub8 (t : Nat) (b : Byte) : Byte := BitVec.ofNat 8 (t >>> (8 * b.toNat))

def xtime (b : Byte) : Byte := if b.getLsbD 7 then (b <<< 1) ^^^ 0x1B#8 else b <<< 1

def gmul8 : Nat → Byte → Byte → Byte
  | 0, _, _ => 0
  | n + 1, a, b => (if b.getLsbD 0 then a else 0) ^^^ gmul8 n (xtime a) (b >>> 1)

def gf (a : Nat) (b : Byte) : Byte := gmul8 4 b (BitVec.ofNat 8 a)

/-- The expanded key, as bytes, built word by word from the last Nk words (reversed list of words). -/
def aesExpandGo (nk : Nat) : Nat → Nat → Byte → List (List Byte) → List (List Byte)
  | 0, _, _, ws => ws
  | n + 1, i, rc, ws =>
    let prev := ws.headD []
    let t := if i % nk == 0 then
        match prev.map (sub8 aesSbox) with
        | [a, b, c, d] => [b ^^^ rc, c, d, a]
        | l => l
      else if nk > 6 && i % nk == 4 then prev.map (sub8 aesSbox) else prev
    aesExpandGo nk n (i + 1) (if i % nk == 0 then xtime rc else rc) (xorBytes (ws.getD (nk - 1) []) t :: ws)

def chunksOf {α : Type} (k : Nat) : Nat → List α → List (List α)
  | 0, _ => []
  | n + 1, l => l.take k :: chunksOf k n (l.drop k)

/-- Round keys of 16 bytes each. -/
def aesKeys (key : List Byte) : List (List Byte) :=
  let nk := key.length / 4
  let ws := (aesExpandGo nk (4 * (nk + 7) - nk) nk 1 (chunksOf 4 nk key).reverse).reverse
  chunksOf 16 (nk + 7) ws.flatten

def shiftRows (s : List Byte) : List Byte := (List.range 16).map (fun i => s.getD ((i + 4 * (i % 4)) % 16) 0)

def invShiftRows (s : List Byte) : List Byte := (List.range 16).map (fun i => s.getD ((i + 12 * (i % 4)) % 16) 0)

def mixWith (m : List Nat) (s : List Byte) : List Byte :=
  (List.range 16).map (fun i =>
    let c := i / 4 * 4
    let r := i % 4
    gf (m.getD ((4 - r) % 4) 0) (s.getD c 0) ^^^ gf (m.getD ((5 - r) % 4) 0) (s.getD (c + 1) 0)
      ^^^ gf (m.getD ((6 - r) % 4) 0) (s.getD (c + 2) 0) ^^^ gf (m.getD ((7 - r) % 4) 0) (s.getD (c + 3) 0))

def aesEncKeys (ks : List (List Byte)) (blk : List Byte) : List Byte :=
  match ks with
  | [] => blk
  | k0 :: rest =>
    let go := rest.dropLast.foldl (fun s k => xorBytes (mixWith [2, 3, 1, 1] (shiftRows (s.map (sub8 aesSbox)))) k) (xorBytes blk k0)
    xorBytes (shiftRows (go.map (sub8 aesSbox))) (rest.getLastD [])

def aesDecKeys (ks : List (List Byte)) (blk : List Byte) : List Byte :=
  match ks.reverse with
  | [] => blk
  | k0 :: rest =>
    let go := rest.dropLast.foldl (fun s k => mixWith [14, 11, 13, 9] (xorBytes ((invShiftRows s).map (sub8 aesInv)) k)) (xorBytes blk k0)
    xorBytes ((invShiftRows go).map (sub8 aesInv)) (rest.getLastD [])

def aesEnc (key blk : List Byte) : List Byte := aesEncKeys (aesKeys key) blk

-- Modes of SP 800-38A to F

def blocks16 (bs : List Byte) : List (List Byte) := chunksOf 16 (ceilDiv bs.length 16) bs

/-- Counter mode from a 128-bit big-endian counter block of which the low `w` bits increment. -/
def ctrGo (ks : List (List Byte)) (w : Nat) : List (List Byte) → Nat → List Byte
  | [], _ => []
  | b :: bs, c =>
    xorBytes b (aesEncKeys ks (beBytes 16 c)) ++ ctrGo ks w bs (c / 2 ^ w * 2 ^ w + (c % 2 ^ w + 1) % 2 ^ w)

def aesCtr (key : List Byte) (w ctr : Nat) (bs : List Byte) : List Byte := ctrGo (aesKeys key) w (blocks16 bs) ctr

def cbcEncGo (ks : List (List Byte)) : List (List Byte) → List Byte → List Byte
  | [], _ => []
  | b :: bs, iv => let c := aesEncKeys ks (xorBytes b iv); c ++ cbcEncGo ks bs c

def cbcDecGo (ks : List (List Byte)) : List (List Byte) → List Byte → List Byte
  | [], _ => []
  | b :: bs, iv => xorBytes (aesDecKeys ks b) iv ++ cbcDecGo ks bs b

/-- CBC-MAC chaining value over whole blocks. -/
def cbcMac (ks : List (List Byte)) (iv : List Byte) (bs : List (List Byte)) : List Byte :=
  bs.foldl (fun c b => aesEncKeys ks (xorBytes (fit 16 b) c)) iv

def dbl128 (n : Nat) : Nat := if n / 2 ^ 127 % 2 == 1 then (2 * n % 2 ^ 128) ^^^ 0x87 else 2 * n

/-- CMAC (SP 800-38B), 16 bytes. -/
def cmac (key msg : List Byte) : List Byte :=
  let ks := aesKeys key
  let l := beNat (aesEncKeys ks (List.replicate 16 0))
  let k1 := dbl128 l
  let bs := blocks16 msg
  let last := bs.getLastD []
  let tail := if msg.length > 0 && msg.length % 16 == 0 then xorBytes last (beBytes 16 k1)
    else xorBytes (fit 16 (last ++ [0x80])) (beBytes 16 (dbl128 k1))
  aesEncKeys ks (xorBytes tail (cbcMac ks (List.replicate 16 0) bs.dropLast))

def ghashMul : Nat → Nat → Nat → Nat → Nat
  | 0, _, _, z => z
  | n + 1, x, v, z =>
    ghashMul n x (if v % 2 == 1 then (v / 2) ^^^ 0xE1000000000000000000000000000000 else v / 2)
      (if x / 2 ^ n % 2 == 1 then z ^^^ v else z)

def ghash (h : Nat) (bs : List Byte) : Nat :=
  (blocks16 bs).foldl (fun y b => ghashMul 128 (y ^^^ beNat (fit 16 b)) h 0) 0

def pad16 (bs : List Byte) : List Byte := bs ++ List.replicate (ceilDiv bs.length 16 * 16 - bs.length) 0

/-- The full GCM tag over additional data and ciphertext, under a 12-byte IV. -/
def gcmTag (key iv aad ct : List Byte) : List Byte :=
  let ks := aesKeys key
  let h := beNat (aesEncKeys ks (List.replicate 16 0))
  let s := ghash h (pad16 aad ++ pad16 ct ++ beBytes 8 (8 * aad.length) ++ beBytes 8 (8 * ct.length))
  xorBytes (beBytes 16 s) (aesEncKeys ks (iv ++ [0, 0, 0, 1]))

def gcmCrypt (key iv bs : List Byte) : List Byte := aesCtr key 32 (beNat (iv ++ [0, 0, 0, 2])) bs

/-- GCM encryption: ciphertext and 16-byte tag. -/
def gcmEnc (key iv aad pt : List Byte) : List Byte × List Byte :=
  let ct := gcmCrypt key iv pt
  (ct, gcmTag key iv aad ct)

/-- GCM decryption against a tag of any length. -/
def gcmDec (key iv aad ct tag : List Byte) : Option (List Byte) :=
  if (gcmTag key iv aad ct).take tag.length = tag then some (gcmCrypt key iv ct) else none

/-- The CCM tag of the plaintext (SP 800-38C). -/
def ccmTag (key nonce aad pt : List Byte) (t : Nat) : List Byte :=
  let q := 15 - nonce.length
  let b0 := BitVec.ofNat 8 ((if aad.length > 0 then 64 else 0) + (t - 2) / 2 * 8 + (q - 1)) :: nonce ++ beBytes q pt.length
  let a := if aad.length == 0 then [] else
    pad16 ((if aad.length < 65280 then beBytes 2 aad.length else [0xFF, 0xFE] ++ beBytes 4 aad.length) ++ aad)
  let mac := cbcMac (aesKeys key) (List.replicate 16 0) (blocks16 (b0 ++ a ++ pad16 pt))
  let s0 := aesEnc key (BitVec.ofNat 8 (q - 1) :: nonce ++ List.replicate q 0)
  (xorBytes mac s0).take t

def ccmCrypt (key nonce bs : List Byte) : List Byte :=
  let q := 15 - nonce.length
  aesCtr key (8 * q) (beNat (BitVec.ofNat 8 (q - 1) :: nonce ++ beBytes q 1)) bs

/-- One pass of the AES-KW wrapping rounds over the semiblocks. -/
def kwWrapPass (ks : List (List Byte)) : Nat → List (List Byte) → List Byte → List (List Byte) × List Byte
  | _, [], a => ([], a)
  | t, r :: rs, a =>
    let b := aesEncKeys ks (a ++ r)
    let a' := xorBytes (b.take 8) (beBytes 8 t)
    let rest := kwWrapPass ks (t + 1) rs a'
    (b.drop 8 :: rest.1, rest.2)

def kwWrapGo (ks : List (List Byte)) (n : Nat) : Nat → Nat → List (List Byte) → List Byte → List Byte
  | 0, _, rs, a => a ++ rs.flatten
  | j + 1, t, rs, a => let p := kwWrapPass ks t rs a; kwWrapGo ks n j (t + n) p.1 p.2

/-- AES-KW wrap (SP 800-38F, no padding). -/
def kwWrap (key pt : List Byte) : List Byte :=
  let n := pt.length / 8
  kwWrapGo (aesKeys key) n 6 1 (chunksOf 8 n pt) (List.replicate 8 0xA6)

def kwUnwrapPass (ks : List (List Byte)) : Nat → List (List Byte) → List Byte → List (List Byte) × List Byte
  | _, [], a => ([], a)
  | t, r :: rs, a =>
    let b := aesDecKeys ks (xorBytes a (beBytes 8 t) ++ r)
    let rest := kwUnwrapPass ks (t - 1) rs (b.take 8)
    (b.drop 8 :: rest.1, rest.2)

def kwUnwrapGo (ks : List (List Byte)) (n : Nat) : Nat → Nat → List (List Byte) → List Byte → List (List Byte) × List Byte
  | 0, _, rs, a => (rs, a)
  | j + 1, t, rs, a => let p := kwUnwrapPass ks t rs a; kwUnwrapGo ks n j (t - n) p.1 p.2

/-- AES-KW unwrap; none when the integrity value fails. -/
def kwUnwrap (key ct : List Byte) : Option (List Byte) :=
  let n := ct.length / 8 - 1
  let p := kwUnwrapGo (aesKeys key) n 6 (6 * n) (chunksOf 8 n (ct.drop 8)).reverse (ct.take 8)
  if p.2 = List.replicate 8 0xA6 then some p.1.reverse.flatten else none

/-- The SP 800-108 counter-mode KDF with AES-256-CMAC (R213, R293): L in bits. -/
def kdf (key label ctx : List Byte) (l : Nat) : List Byte :=
  ((List.range (ceilDiv l 128)).flatMap (fun i => cmac key (beBytes 4 (i + 1) ++ label ++ [0] ++ ctx ++ beBytes 4 l))).take (l / 8)

-- Arithmetic modulo a number, for the content checks of 09_public_key

def modPow : Nat → Nat → Nat → Nat → Nat
  | 0, _, _, m => 1 % m
  | n + 1, b, e, m => if e == 0 then 1 % m else
      (if e % 2 == 1 then b else 1) * modPow n (b * b % m) (e / 2) m % m

/-- Inverse modulo m by the extended Euclidean steps, with fuel. -/
def modInvGo : Nat → Int → Int → Int → Int → Int
  | 0, _, _, t0, _ => t0
  | n + 1, r0, r1, t0, t1 => if r1 == 0 then t0 else modInvGo n r1 (r0 % r1) t1 (t0 - r0 / r1 * t1)

def modInv (a m : Nat) : Nat := ((modInvGo 6000 m (a % m) 0 1) % m).toNat

structure Curve where
  size : Nat
  p : Nat
  b : Nat
  n : Nat
  gx : Nat
  gy : Nat

/-- P-256 of FIPS 186-5 (its constants PRESUMED from the standard). -/
def p256 : Curve where
  size := 32
  p := 2 ^ 256 - 2 ^ 224 + 2 ^ 192 + 2 ^ 96 - 1
  b := 0x5ac635d8aa3a93e7b3ebbd55769886bc651d06b0cc53b0f63bce3c3e27d2604b
  n := 0xffffffff00000000ffffffffffffffffbce6faada7179e84f3b9cac2fc632551
  gx := 0x6b17d1f2e12c4247f8bce6e563a440f277037d812deb33a0f4a13945d898c296
  gy := 0x4fe342e2fe1a7f9b8ee7eb4a7c0f9e162bce33576b315ececbb6406837bf51f5

/-- P-384 of FIPS 186-5. -/
def p384 : Curve where
  size := 48
  p := 2 ^ 384 - 2 ^ 128 - 2 ^ 96 + 2 ^ 32 - 1
  b := 0xb3312fa7e23ee7e4988e056be3f82d19181d9c6efe8141120314088f5013875ac656398d8a2ed19d2a85c8edd3ec2aef
  n := 0xffffffffffffffffffffffffffffffffffffffffffffffffc7634d81f4372ddf581a0db248b0a77aecec196accc52973
  gx := 0xaa87ca22be8b05378eb1c71ef320ad746e1d3b628ba79b9859f741e082542a385502f25dbf55296c3a545e3872760ab7
  gy := 0x3617de4a96262c6f5d9e98bf9292dc29f8f41dbd289a147ce9da3113b5f0b8c00a60b1ce1d7e819d7a431d7c90ea0e5f

/-- Order of the Ed25519 base point (RFC 8032). -/
def edOrder : Nat := 2 ^ 252 + 27742317777372353535851937790883648493

/-- The encoded point x then y lies on the curve with both coordinates below p (R404 table). -/
def Curve.pointOk (c : Curve) (pub : List Byte) : Bool :=
  let x := beNat (pub.take c.size)
  let y := beNat (pub.drop c.size)
  decide (x < c.p) && decide (y < c.p) && decide (y * y % c.p = (x * x * x + (c.p - 3) * x + c.b) % c.p)

/-- A scalar lies in [1, n - 1]. -/
def Curve.scalarOk (c : Curve) (d : Nat) : Bool := decide (1 ≤ d) && decide (d < c.n)

end Sys2Proof.Machine
end

