-- ==== Sys2Proof/Machine/Curves.lean ====
section
/-! DEFINITION. The public-key standards of R402 but for the lattice schemes: ECDSA and ECDH on P-256 and P-384 (FIPS 186-5,
SP 800-56A), X25519 (RFC 7748), Ed25519 (RFC 8032) and RSA (RFC 8017). PRESUMED from those standards (log 15). -/
namespace Sys2Proof.Machine

-- Short Weierstrass curves, Jacobian coordinates; z = 0 is the point at infinity

structure JPoint where
  x : Nat
  y : Nat
  z : Nat
  deriving DecidableEq, Repr

def JPoint.infinity : JPoint := { x := 1, y := 1, z := 0 }

/-- Difference modulo p of reduced numbers. -/
def subMod (p a b : Nat) : Nat := (a + p - b % p) % p

def Curve.dbl (c : Curve) (a : JPoint) : JPoint :=
  if a.z == 0 then a
  else
    let yy := a.y * a.y % c.p
    let s := 4 * a.x * yy % c.p
    let zz := a.z * a.z % c.p
    let m := 3 * subMod c.p a.x zz * (a.x + zz) % c.p
    let x := subMod c.p (m * m % c.p) (2 * s)
    { x := x, y := subMod c.p (m * subMod c.p s x % c.p) (8 * yy * yy), z := 2 * a.y * a.z % c.p }

def Curve.add (c : Curve) (a b : JPoint) : JPoint :=
  if a.z == 0 then b
  else if b.z == 0 then a
  else
    let za := a.z * a.z % c.p
    let zb := b.z * b.z % c.p
    let u1 := a.x * zb % c.p
    let u2 := b.x * za % c.p
    let s1 := a.y * zb % c.p * b.z % c.p
    let s2 := b.y * za % c.p * a.z % c.p
    if u1 == u2 then (if s1 == s2 then c.dbl a else JPoint.infinity)
    else
      let h := subMod c.p u2 u1
      let r := subMod c.p s2 s1
      let hh := h * h % c.p
      let hhh := h * hh % c.p
      let v := u1 * hh % c.p
      let x := subMod c.p (subMod c.p (r * r % c.p) hhh) (2 * v)
      { x := x, y := subMod c.p (r * subMod c.p v x % c.p) (s1 * hhh), z := a.z * b.z % c.p * h % c.p }

/-- Adds k times a to acc, over n bits of k from the lowest. -/
def Curve.mulGo (c : Curve) : Nat → Nat → JPoint → JPoint → JPoint
  | 0, _, _, acc => acc
  | n + 1, k, a, acc => c.mulGo n (k / 2) (c.dbl a) (if k % 2 == 1 then c.add acc a else acc)

def Curve.mul (c : Curve) (k : Nat) (a : JPoint) : JPoint := c.mulGo (8 * c.size) k a JPoint.infinity

/-- Affine coordinates, none for the point at infinity. -/
def Curve.affine (c : Curve) (a : JPoint) : Option (Nat × Nat) :=
  if a.z == 0 then none
  else
    let i := modInv a.z c.p
    let ii := i * i % c.p
    some (a.x * ii % c.p, a.y * ii % c.p * i % c.p)

/-- The point x then y of a public key. -/
def Curve.decode (c : Curve) (pub : List Byte) : JPoint :=
  { x := beNat (pub.take c.size), y := beNat ((pub.drop c.size).take c.size), z := 1 }

/-- A point's coordinates as bytes, x then y; zeros for the point at infinity. -/
def Curve.encode (c : Curve) (a : JPoint) : List Byte :=
  match c.affine a with
  | some (x, y) => beBytes c.size x ++ beBytes c.size y
  | none => List.replicate (2 * c.size) 0

def Curve.base (c : Curve) : JPoint := { x := c.gx, y := c.gy, z := 1 }

/-- Public key of a private scalar. -/
@[irreducible] def Curve.publicOf (c : Curve) (k : List Byte) : List Byte := c.encode (c.mul (beNat k) c.base)

/-- The shared x-coordinate, none when the result is the point at infinity (R211, R402, R404). -/
@[irreducible] def Curve.agree (c : Curve) (k peer : List Byte) : Option (List Byte) :=
  (c.affine (c.mul (beNat k) (c.decode peer))).map (fun p => beBytes c.size p.1)

/-- The digest cut to the order's bit length (R402). -/
def Curve.hashInt (c : Curve) (h : List Byte) : Nat := beNat (h.take c.size)

/-- An ECDSA signature with the per-signature secret k; none when r or s comes out 0. -/
@[irreducible] def Curve.signWith (c : Curve) (key h : List Byte) (k : Nat) : Option (List Byte) :=
  match c.affine (c.mul k c.base) with
  | none => none
  | some (x, _) =>
    let r := x % c.n
    let s := modInv k c.n * (c.hashInt h + r * beNat key) % c.n
    if r == 0 || s == 0 then none else some (beBytes c.size r ++ beBytes c.size s)

/-- The ECDSA verification equation, for r and s in range. -/
@[irreducible] def Curve.verify (c : Curve) (pub h sig : List Byte) : Bool :=
  let r := beNat (sig.take c.size)
  let s := beNat (sig.drop c.size)
  let w := modInv s c.n
  let p := c.add (c.mul (c.hashInt h * w % c.n) c.base) (c.mul (r * w % c.n) (c.decode pub))
  c.scalarOk r && c.scalarOk s &&
    (match c.affine p with
     | some (x, _) => x % c.n == r
     | none => false)

-- Curve25519 (RFC 7748)

def p25519 : Nat := 2 ^ 255 - 19

def inv25519 (a : Nat) : Nat := modPow 255 a (p25519 - 2) p25519

/-- A private key as the scalar multiplications use it. -/
def clamp (n : Nat) : Nat := 2 ^ 254 + n % 2 ^ 254 / 8 * 8

/-- The Montgomery ladder over n bits of k from bit n - 1 down; the points are (x2 : z2) and (x3 : z3). -/
def ladder (u k : Nat) : Nat → Nat × Nat → Nat × Nat → Nat × Nat
  | 0, a, _ => a
  | n + 1, a, b =>
    let bit := k / 2 ^ n % 2 == 1
    let p := if bit then b else a
    let q := if bit then a else b
    let s := (p.1 + p.2) % p25519
    let d := subMod p25519 p.1 p.2
    let ss := s * s % p25519
    let dd := d * d % p25519
    let e := subMod p25519 ss dd
    let da := subMod p25519 q.1 q.2 * s % p25519
    let cb := (q.1 + q.2) * d % p25519
    let x3 := (da + cb) * (da + cb) % p25519
    let df := subMod p25519 da cb
    let dbl := (ss * dd % p25519, e * (ss + 121665 * e) % p25519)
    let sum := (x3, u * df % p25519 * df % p25519)
    ladder u k n (if bit then sum else dbl) (if bit then dbl else sum)

/-- X25519 of a private key and a public u-coordinate (RFC 7748). -/
@[irreducible] def x25519 (k peer : List Byte) : List Byte :=
  let u := leNat peer % 2 ^ 255 % p25519
  let r := ladder u (clamp (leNat k)) 255 (1, 0) (u, 1)
  (beBytes 32 (r.1 * inv25519 r.2 % p25519)).reverse

-- Ed25519 (RFC 8032), extended coordinates

structure EPoint where
  x : Nat
  y : Nat
  z : Nat
  t : Nat
  deriving DecidableEq, Repr

def edD : Nat := subMod p25519 0 (121665 * inv25519 121666)

def EPoint.identity : EPoint := { x := 0, y := 1, z := 1, t := 0 }

def edAdd (a b : EPoint) : EPoint :=
  let s := subMod p25519 a.y a.x * subMod p25519 b.y b.x % p25519
  let t := (a.y + a.x) * (b.y + b.x) % p25519
  let c := 2 * a.t * b.t % p25519 * edD % p25519
  let d := 2 * a.z * b.z % p25519
  let e := subMod p25519 t s
  let f := subMod p25519 d c
  let g := (d + c) % p25519
  let h := (t + s) % p25519
  { x := e * f % p25519, y := g * h % p25519, z := f * g % p25519, t := e * h % p25519 }

/-- Adds k times a to acc, over n bits of k from the lowest. -/
def edMulGo : Nat → Nat → EPoint → EPoint → EPoint
  | 0, _, _, acc => acc
  | n + 1, k, a, acc => edMulGo n (k / 2) (edAdd a a) (if k % 2 == 1 then edAdd acc a else acc)

def edMul (k : Nat) (a : EPoint) : EPoint := edMulGo 256 k a EPoint.identity

def edEq (a b : EPoint) : Bool :=
  a.x * b.z % p25519 == b.x * a.z % p25519 && a.y * b.z % p25519 == b.y * a.z % p25519

/-- Decodes a point: its y-coordinate is below p and an x-coordinate of the sign bit's parity exists. -/
def edDecode (bs : List Byte) : Option EPoint :=
  let n := leNat bs
  let y := n % 2 ^ 255
  let odd := n / 2 ^ 255 % 2
  let u := subMod p25519 (y * y % p25519) 1
  let v := (edD * (y * y % p25519) + 1) % p25519
  let x := u * modPow 2 v 3 p25519 % p25519 * modPow 255 (u * modPow 3 v 7 p25519 % p25519) ((p25519 - 5) / 8) p25519 % p25519
  let root : Option Nat :=
    if v * x % p25519 * x % p25519 == u then some x
    else if v * x % p25519 * x % p25519 == subMod p25519 0 u then some (x * modPow 255 2 ((p25519 - 1) / 4) p25519 % p25519)
    else none
  if p25519 ≤ y then none
  else
    match root with
    | none => none
    | some x =>
      if x == 0 && odd == 1 then none
      else
        let x := if x % 2 == odd then x else subMod p25519 0 x
        some { x := x, y := y, z := 1, t := x * y % p25519 }

def edEncode (a : EPoint) : List Byte :=
  let i := inv25519 a.z
  (beBytes 32 (a.y * i % p25519 + a.x * i % p25519 % 2 * 2 ^ 255)).reverse

def edBase : EPoint :=
  (edDecode (0x58 :: List.replicate 31 0x66)).getD EPoint.identity

/-- An encoding is canonical and on the curve; a public key is not of small order (R404 table). -/
def edPointOk (bs : List Byte) (isKey : Bool) : Bool :=
  match edDecode bs with
  | none => false
  | some a => !isKey || !edEq (edMul 8 a) EPoint.identity

@[irreducible] def edPublic (seed : List Byte) : List Byte := edEncode (edMul (clamp (leNat ((sha512 seed).take 32))) edBase)

/-- A pure Ed25519 signature under a seed. -/
@[irreducible] def edSign (seed msg : List Byte) : List Byte :=
  let h := sha512 seed
  let a := clamp (leNat (h.take 32))
  let r := leNat (sha512 (h.drop 32 ++ msg)) % edOrder
  let rr := edEncode (edMul r edBase)
  let k := leNat (sha512 (rr ++ edPublic seed ++ msg)) % edOrder
  rr ++ (beBytes 32 ((r + k * a) % edOrder)).reverse

/-- [S]B = R + [k]A, with no cofactor (R404 table). -/
@[irreducible] def edVerify (pub msg sig : List Byte) : Bool :=
  match edDecode pub, edDecode (sig.take 32) with
  | some a, some r =>
    let k := leNat (sha512 (sig.take 32 ++ pub ++ msg)) % edOrder
    decide (leNat (sig.drop 32) < edOrder) && edEq (edMul (leNat (sig.drop 32)) edBase) (edAdd r (edMul k a))
  | _, _ => false

-- RSA (RFC 8017)

/-- The first n bytes of MGF1. -/
def mgf1 (hash : List Byte → List Byte) (seed : List Byte) (n : Nat) : List Byte :=
  let k := (hash []).length
  ((List.range (ceilDiv n k)).flatMap (fun i => hash (seed ++ beBytes 4 i))).take n

/-- The hash of a scheme: SHA-256 or SHA-384 of the PSS schemes, and of the PKCS1-v1_5 schemes 0x06 and 0x07; SHA-512 of 0x08. -/
def schemeHash (scheme : Nat) : List Byte → List Byte :=
  if scheme == 4 || scheme == 6 then sha256 else if scheme == 5 || scheme == 7 then sha384 else sha512

/-- Number with its top bit cleared, as PSS clears the bit above the message representative. -/
def clearTop (bs : List Byte) : List Byte :=
  match bs with
  | [] => []
  | b :: rest => (b &&& 0x7F) :: rest

/-- EMSA-PSS encoding of a digest in k bytes under a salt, or none when it does not fit. -/
def pssEncode (scheme k : Nat) (digest salt : List Byte) : Option (List Byte) :=
  let hash := schemeHash scheme
  let n := digest.length
  if k < n + salt.length + 2 then none
  else
    let h := hash (List.replicate 8 0 ++ digest ++ salt)
    let db := List.replicate (k - salt.length - n - 2) 0 ++ [0x01] ++ salt
    some (clearTop (xorBytes db (mgf1 hash h db.length)) ++ h ++ [0xBC])

/-- A message representative of k bytes is a PSS encoding of a digest with a salt of the given length. -/
def pssVerify (scheme : Nat) (digest em : List Byte) (salt : Nat) : Bool :=
  let hash := schemeHash scheme
  let k := em.length
  let n := digest.length
  let h := slice em (k - n - 1) n
  let masked := em.take (k - n - 1)
  let db := clearTop (xorBytes masked (mgf1 hash h masked.length))
  decide (n + salt + 2 ≤ k) && em.getLastD 0 == 0xBC && decide ((em.getD 0 0).toNat < 128) &&
    db.take (k - n - salt - 2) == List.replicate (k - n - salt - 2) 0 && db.getD (k - n - salt - 2) 0 == 0x01 &&
    h == hash (List.replicate 8 0 ++ digest ++ db.drop (db.length - salt))

/-- EMSA-PKCS1-v1_5 encoding of a digest in k bytes. -/
def v15Encode (scheme k : Nat) (digest : List Byte) : List Byte :=
  let n := digest.length
  let id : Byte := if scheme == 6 then 1 else if scheme == 7 then 2 else 3
  let info : List Byte := [0x30, BitVec.ofNat 8 (n + 17), 0x30, 0x0D, 0x06, 0x09, 0x60, 0x86, 0x48, 0x01, 0x65, 0x03, 0x04, 0x02, id, 0x05,
    0x00, 0x04, BitVec.ofNat 8 n] ++ digest
  [0x00, 0x01] ++ List.replicate (k - info.length - 3) 0xFF ++ [0x00] ++ info

/-- RSA verification with e = 65537 under the modulus (R402, R404 table). -/
@[irreducible] def rsaVerify (scheme : Nat) (modulus digest sig : List Byte) (salt : Nat) : Bool :=
  let em := beBytes modulus.length (modPow 17 (beNat sig) 65537 (beNat modulus))
  if scheme == 4 || scheme == 5 then pssVerify scheme digest em salt else em == v15Encode scheme modulus.length digest

/-- The private operation on a CRT key p, q, dP, dQ, qInv. -/
def rsaPrivate (m : List Byte) (x : Nat) : Nat :=
  let part (i : Nat) : Nat := beNat (slice m (256 * i) 256)
  let p := part 0
  let q := part 1
  let a := modPow 2048 (x % p) (part 2) p
  let b := modPow 2048 (x % q) (part 3) q
  b + q * (part 4 * subMod p a (b % p) % p)

/-- An RSA-4096 signature of a digest under a salt. -/
@[irreducible] def rsaSign (scheme : Nat) (m digest salt : List Byte) : List Byte :=
  let em := if scheme == 4 || scheme == 5 then (pssEncode scheme 512 digest salt).getD [] else v15Encode scheme 512 digest
  beBytes 512 (rsaPrivate m (beNat em))

/-- R410 step 1: no prime below 2^16 divides the candidate, and e divides neither it nor its predecessor
(DEDUCED, log 88). -/
@[irreducible] def rsaSieved (n : Nat) : Bool :=
  (List.range 32767).all (fun i => n % (2 * i + 3) != 0) && n % 65537 != 0 && (n - 1) % 65537 != 0

/-- Largest power of two in a number, and the odd rest; at most `fuel` halvings. -/
def splitTwos : Nat → Nat → Nat × Nat
  | 0, n => (0, n)
  | f + 1, n => if n % 2 == 0 then ((splitTwos f (n / 2)).1 + 1, (splitTwos f (n / 2)).2) else (0, n)

/-- Among z, z², … (a values) one is -1 modulo n. -/
def hitsMinusOne (n : Nat) : Nat → Nat → Bool
  | 0, _ => false
  | a + 1, z => z == n - 1 || hitsMinusOne n a (z * z % n)

/-- One Miller-Rabin round finds n composite for a base (FIPS 186-5 C.3). -/
@[irreducible] def composite (n base : Nat) : Bool :=
  let t := splitTwos 2048 (n - 1)
  let z := modPow 2048 base t.2 n
  !(z == 1 || hitsMinusOne n t.1 z)

end Sys2Proof.Machine
end

