-- ==== Sys2Proof/Machine/Lattice.lean ====
section
/-! DEFINITION. The lattice schemes of R402: ML-KEM-768 (FIPS 203) and ML-DSA-65 (FIPS 204). PRESUMED from those standards (log 15).
A polynomial is the list of its 256 coefficients modulo q. -/
namespace Sys2Proof.Machine

-- Number-theoretic transforms

/-- Modulus, root of unity, bits of the root's index, layer lengths from the longest, and the inverse's last factor. -/
structure Ring where
  q : Nat
  root : Nat
  bits : Nat
  lens : List Nat
  scale : Nat

def kemRing : Ring := { q := 3329, root := 17, bits := 7, lens := [128, 64, 32, 16, 8, 4, 2], scale := 3303 }
def dsaRing : Ring := { q := 8380417, root := 1753, bits := 8, lens := [128, 64, 32, 16, 8, 4, 2, 1], scale := 8347681 }

/-- The n low bits of a number in reverse order. -/
def bitRev : Nat → Nat → Nat
  | 0, _ => 0
  | n + 1, i => i % 2 * 2 ^ n + bitRev n (i / 2)

def Ring.zeta (r : Ring) (i : Nat) : Nat := modPow 9 r.root (bitRev r.bits i) r.q

/-- One layer: blocks of 2 · len coefficients, each with the root that `idx` gives its number. -/
def Ring.layer (len : Nat) (f : Nat → List Nat → List Nat → List Nat) (p : List Nat) : List Nat :=
  (chunksOf (2 * len) (128 / len) p).zipIdx.flatMap (fun x => f x.2 (x.1.take len) (x.1.drop len))

def Ring.ntt (r : Ring) (p : List Nat) : List Nat :=
  r.lens.foldl (fun p len => Ring.layer len (fun b lo hi =>
    let z := r.zeta (128 / len + b)
    let t := hi.map (fun x => z * x % r.q)
    List.zipWith (fun a x => (a + x) % r.q) lo t ++ List.zipWith (fun a x => (a + r.q - x) % r.q) lo t) p) p

def Ring.intt (r : Ring) (p : List Nat) : List Nat :=
  (r.lens.reverse.foldl (fun p len => Ring.layer len (fun b lo hi =>
    let z := r.zeta (256 / len - 1 - b)
    List.zipWith (fun a x => (a + x) % r.q) lo hi ++ List.zipWith (fun a x => z * (x + r.q - a) % r.q) lo hi) p) p).map (fun x => x * r.scale % r.q)

def Ring.add (r : Ring) (a b : List Nat) : List Nat := List.zipWith (fun x y => (x + y) % r.q) a b

def Ring.sub (r : Ring) (a b : List Nat) : List Nat := List.zipWith (fun x y => (x + r.q - y) % r.q) a b

def zeroPoly : List Nat := List.replicate 256 0

/-- Coefficients of d bits as bytes, lowest first. -/
def polyPack (d : Nat) (cs : List Nat) : List Byte :=
  (beBytes (d * cs.length / 8) (cs.reverse.foldl (fun acc c => acc * 2 ^ d + c % 2 ^ d) 0)).reverse

/-- n coefficients of d bits from bytes. -/
def polyUnpack (d n : Nat) (bs : List Byte) : List Nat :=
  let x := leNat bs
  (List.range n).map (fun i => x / 2 ^ (d * i) % 2 ^ d)

-- ML-KEM-768

/-- Product in the transformed domain: pairs modulo X² - ζ. -/
def kemMul (a b : List Nat) : List Nat :=
  (List.range 128).flatMap (fun i =>
    let z := modPow 9 17 (2 * bitRev 7 i + 1) 3329
    let (a0, a1) := (a.getD (2 * i) 0, a.getD (2 * i + 1) 0)
    let (b0, b1) := (b.getD (2 * i) 0, b.getD (2 * i + 1) 0)
    [(a0 * b0 + a1 * b1 % 3329 * z) % 3329, (a0 * b1 + a1 * b0) % 3329])

def kemDot (u v : List (List Nat)) : List Nat := (List.zipWith kemMul u v).foldl kemRing.add zeroPoly

/-- SampleNTT: the first 256 values below q of the 12-bit pairs of the stream. -/
def kemSample (seed : List Byte) : List Nat :=
  ((chunksOf 3 560 (shake128 1680 seed)).flatMap (fun c =>
    let b (i : Nat) : Nat := (c.getD i 0).toNat
    [b 0 + b 1 % 16 * 256, b 1 / 16 + b 2 * 16].filter (· < 3329))).take 256

/-- The centred binomial sample of η = 2 under a seed and a counter. -/
def kemNoise (seed : List Byte) (n : Nat) : List Nat :=
  (polyUnpack 4 256 (shake256 128 (seed ++ [BitVec.ofNat 8 n]))).map (fun x =>
    (x % 2 + x / 2 % 2 + 3329 - (x / 4 % 2 + x / 8 % 2)) % 3329)

def kemMatrix (rho : List Byte) : List (List (List Nat)) :=
  (List.range 3).map (fun i => (List.range 3).map (fun j => kemSample (rho ++ [BitVec.ofNat 8 j, BitVec.ofNat 8 i])))

def compress (d x : Nat) : Nat := (2 * 2 ^ d * x + 3329) / 6658 % 2 ^ d
def decompress (d y : Nat) : Nat := (2 * 3329 * y + 2 ^ d) / (2 * 2 ^ d)

/-- Secret vector and encapsulation key of the seed d (KeyGen). -/
def kemKeys (d : List Byte) : List (List Nat) × List Byte :=
  let g := sha3_512 (d ++ [3])
  let rho := g.take 32
  let s := (List.range 3).map (fun i => kemRing.ntt (kemNoise (g.drop 32) i))
  let e := (List.range 3).map (fun i => kemRing.ntt (kemNoise (g.drop 32) (3 + i)))
  let t := List.zipWith (fun row e => kemRing.add (kemDot row s) e) (kemMatrix rho) e
  (s, t.flatMap (polyPack 12) ++ rho)

/-- K-PKE.Encrypt of 32 bytes under a key and randomness. -/
def kemEncrypt (ek m r : List Byte) : List Byte :=
  let t := (chunksOf 384 3 ek).map (fun b => (polyUnpack 12 256 b).map (· % 3329))
  let a := kemMatrix (ek.drop 1152)
  let y := (List.range 3).map (fun i => kemRing.ntt (kemNoise r i))
  let u := (List.range 3).map (fun i =>
    kemRing.add (kemRing.intt (kemDot (a.map (fun row => row.getD i [])) y)) (kemNoise r (3 + i)))
  let mu := (polyUnpack 1 256 m).map (decompress 1)
  let v := kemRing.add (kemRing.add (kemRing.intt (kemDot t y)) (kemNoise r 6)) mu
  u.flatMap (fun p => polyPack 10 (p.map (compress 10))) ++ polyPack 4 (v.map (compress 4))

def kemDecrypt (s : List (List Nat)) (c : List Byte) : List Byte :=
  let u := (chunksOf 320 3 c).map (fun b => kemRing.ntt ((polyUnpack 10 256 b).map (decompress 10)))
  let v := (polyUnpack 4 256 (c.drop 960)).map (decompress 4)
  polyPack 1 ((kemRing.sub v (kemRing.intt (kemDot s u))).map (compress 1))

/-- Encapsulation key of the 64-byte seed d then z (R303). -/
@[irreducible] def kemPublic (seed : List Byte) : List Byte := (kemKeys (seed.take 32)).2

/-- Ciphertext and shared secret of 32 random bytes. -/
@[irreducible] def kemEncaps (ek m : List Byte) : List Byte × List Byte :=
  let g := sha3_512 (m ++ sha3_256 ek)
  (kemEncrypt ek m (g.drop 32), g.take 32)

/-- Shared secret of a ciphertext; one that fails re-encryption gives the implicit-rejection secret (R407). -/
@[irreducible] def kemDecaps (seed c : List Byte) : List Byte :=
  let (s, ek) := kemKeys (seed.take 32)
  let m := kemDecrypt s c
  let g := sha3_512 (m ++ sha3_256 ek)
  if kemEncrypt ek m (g.drop 32) == c then g.take 32 else shake256 32 (seed.drop 32 ++ c)

-- ML-DSA-65

def dsaQ : Nat := 8380417

def dsaMul (a b : List Nat) : List Nat := List.zipWith (fun x y => x * y % dsaQ) a b

def dsaDot (u v : List (List Nat)) : List Nat := (List.zipWith dsaMul u v).foldl dsaRing.add zeroPoly

/-- RejNTTPoly: the first 256 values below q of 23 bits. -/
def dsaSample (seed : List Byte) : List Nat :=
  ((chunksOf 3 560 (shake128 1680 seed)).filterMap (fun c =>
    let x := leNat c % 2 ^ 23
    if x < dsaQ then some x else none)).take 256

def dsaMatrix (rho : List Byte) : List (List (List Nat)) :=
  (List.range 6).map (fun r => (List.range 5).map (fun s => dsaSample (rho ++ [BitVec.ofNat 8 s, BitVec.ofNat 8 r])))

/-- RejBoundedPoly for η = 4. -/
def dsaSmall (seed : List Byte) (n : Nat) : List Nat :=
  ((shake256 680 (seed ++ [BitVec.ofNat 8 n, BitVec.ofNat 8 (n / 256)])).flatMap (fun b =>
    ([b.toNat % 16, b.toNat / 16].filter (· < 9)).map (fun x => (dsaQ + 4 - x) % dsaQ))).take 256

/-- A private key: ρ, K, the two secret vectors and t. -/
structure DsaKey where
  rho : List Byte
  k : List Byte
  s1 : List (List Nat)
  s2 : List (List Nat)
  t : List (List Nat)
  deriving DecidableEq, Repr

@[irreducible] def dsaKey (seed : List Byte) : DsaKey :=
  let h := shake256 128 (seed ++ [6, 5])
  let rho := h.take 32
  let s1 := (List.range 5).map (dsaSmall (slice h 32 64))
  let s2 := (List.range 6).map (fun i => dsaSmall (slice h 32 64) (5 + i))
  let n1 := s1.map dsaRing.ntt
  { rho := rho, k := h.drop 96, s1 := s1, s2 := s2
    t := List.zipWith (fun row e => dsaRing.add (dsaRing.intt (dsaDot row n1)) e) (dsaMatrix rho) s2 }

/-- High part of Power2Round with d = 13; the low part is in (-2^12, 2^12]. -/
def round13 (x : Nat) : Nat := (x + 2 ^ 12 - 1) / 2 ^ 13

/-- The low part of Power2Round modulo q. -/
def low13 (x : Nat) : Nat := (x + dsaQ - round13 x * 2 ^ 13) % dsaQ

def DsaKey.public (x : DsaKey) : List Byte := x.rho ++ x.t.flatMap (fun p => polyPack 10 (p.map round13))

/-- γ₂ = (q - 1) / 32. -/
def gamma2 : Nat := 261888

/-- Distance of a residue from 0. -/
def absQ (x : Nat) : Nat := min x (dsaQ - x)

def maxAbs (ps : List (List Nat)) : Nat := (ps.flatten.map absQ).foldl max 0

/-- High part of Decompose. -/
def highBits (x : Nat) : Nat := (x + gamma2 - 1) / (2 * gamma2) % 16

/-- Low part of Decompose modulo q; above the last multiple of 2γ₂ it is x - q. -/
def lowBits (x : Nat) : Nat :=
  if (x + gamma2 - 1) / (2 * gamma2) == 16 then x else (x + dsaQ - highBits x * (2 * gamma2)) % dsaQ

/-- UseHint. -/
def useHint (h : Bool) (x : Nat) : Nat :=
  if !h then highBits x
  else
    let low := lowBits x
    if 0 < low && decide (low ≤ gamma2) then (highBits x + 1) % 16 else (highBits x + 15) % 16

/-- SampleInBall, from position i on. -/
def ballGo : Nat → Nat → Nat → List Byte → List Nat → List Nat
  | 0, _, _, _, c => c
  | n + 1, i, signs, bs, c =>
    match bs with
    | [] => c
    | b :: rest =>
      if 256 ≤ i then c
      else if i < b.toNat then ballGo n i signs rest c
      else
        let c := setAt c i (c.getD b.toNat 0)
        ballGo n (i + 1) (signs / 2) rest (setAt c b.toNat (if signs % 2 == 1 then dsaQ - 1 else 1))

def sampleInBall (seed : List Byte) : List Nat :=
  let s := shake256 544 seed
  ballGo 536 (256 - 49) (leNat (s.take 8)) (s.drop 8) zeroPoly

/-- M' of the pure scheme with a context. -/
def dsaMessage (ctx msg : List Byte) : List Byte := 0 :: BitVec.ofNat 8 ctx.length :: ctx ++ msg

def dsaMu (pub ctx msg : List Byte) : List Byte := shake256 64 (shake256 64 pub ++ dsaMessage ctx msg)

def dsaChallenge (mu : List Byte) (w1 : List (List Nat)) : List Byte := shake256 48 (mu ++ w1.flatMap (polyPack 4))

/-- ExpandMask. -/
def dsaMask (seed : List Byte) (kappa : Nat) : List (List Nat) :=
  (List.range 5).map (fun r =>
    let n := kappa + r
    (polyUnpack 20 256 (shake256 640 (seed ++ [BitVec.ofNat 8 n, BitVec.ofNat 8 (n / 256)]))).map (fun z => (dsaQ + 2 ^ 19 - z) % dsaQ))

/-- HintBitPack. -/
def packHint (h : List (List Bool)) : List Byte :=
  let idx := h.map (fun p => (p.zipIdx.filter (·.1)).map (·.2))
  let ends := (List.range 6).map (fun i => ((idx.take (i + 1)).map List.length).foldl (· + ·) 0)
  fit 55 (idx.flatten.map (BitVec.ofNat 8)) ++ ends.map (BitVec.ofNat 8)

/-- Strictly rising. -/
def rising : List Nat → Bool
  | a :: b :: l => decide (a < b) && rising (b :: l)
  | _ => true

/-- HintBitUnpack: none for a malformed hint. -/
def unpackHint (bs : List Byte) : Option (List (List Nat)) :=
  let pos := (bs.take 55).map (·.toNat)
  let ends := (bs.drop 55).map (·.toNat)
  let starts := 0 :: ends.dropLast
  let lists := List.zipWith (fun a b => slice pos a (b - a)) starts ends
  if bs.length == 61 && (List.zipWith (fun a b => decide (a ≤ b) && decide (b ≤ 55)) starts ends).all id && lists.all rising
      && (pos.drop (ends.getLastD 0)).all (· == 0) then some lists else none

/-- The signature and hint encodings are well formed (R404 table). -/
def dsaFormed (sig : List Byte) : Bool := sig.length == 3309 && (unpackHint (sig.drop 3248)).isSome

/-- One attempt of the rejection loop. -/
def dsaAttempt (x : DsaKey) (mu seed : List Byte) (kappa : Nat) : Option (List Byte) :=
  let a := dsaMatrix x.rho
  let y := dsaMask seed kappa
  let ny := y.map dsaRing.ntt
  let w := a.map (fun row => dsaRing.intt (dsaDot row ny))
  let ch := dsaChallenge mu (w.map (fun p => p.map highBits))
  let c := dsaRing.ntt (sampleInBall ch)
  let times (p : List Nat) : List Nat := dsaRing.intt (dsaMul c (dsaRing.ntt p))
  let z := List.zipWith dsaRing.add y (x.s1.map times)
  let r := List.zipWith dsaRing.sub w (x.s2.map times)
  let t0 := x.t.map (fun p => times (p.map low13))
  let h := List.zipWith (fun r t => List.zipWith (fun r t => highBits r != highBits ((r + t) % dsaQ)) r t) r t0
  if decide (2 ^ 19 - 196 ≤ maxAbs z) || decide (gamma2 - 196 ≤ maxAbs (r.map (fun p => p.map lowBits))) || decide (gamma2 ≤ maxAbs t0)
      || decide (55 < (h.flatten.filter id).length) then none
  else some (ch ++ z.flatMap (fun p => polyPack 20 (p.map (fun v => (dsaQ + 2 ^ 19 - v) % dsaQ))) ++ packHint h)

/-- One run of the sign program: the first of n attempts that is not rejected (09_public_key: up to 16 attempts). -/
def dsaRun (x : DsaKey) (mu seed : List Byte) : Nat → Nat → Option (List Byte)
  | 0, _ => none
  | n + 1, kappa =>
    match dsaAttempt x mu seed kappa with
    | some s => some s
    | none => dsaRun x mu seed n (kappa + 5)

/-- A run of ML-DSA-65 sign under a seed with an empty context and 32 random bytes. -/
@[irreducible] def dsaSign (seed msg rnd : List Byte) : Option (List Byte) :=
  let x := dsaKey seed
  let mu := dsaMu x.public [] msg
  dsaRun x mu (shake256 64 (x.k ++ rnd ++ mu)) 16 0

/-- ML-DSA-65 verification of a well-formed signature. -/
@[irreducible] def dsaVerify (pub msg sig ctx : List Byte) : Bool :=
  match unpackHint (sig.drop 3248) with
  | none => false
  | some h =>
    let ch := sig.take 48
    let z := (chunksOf 640 5 (sig.drop 48)).map (fun b => (polyUnpack 20 256 b).map (fun v => (dsaQ + 2 ^ 19 - v) % dsaQ))
    let nz := z.map dsaRing.ntt
    let c := dsaRing.ntt (sampleInBall ch)
    let t1 := (chunksOf 320 6 (pub.drop 32)).map (fun b => dsaRing.ntt ((polyUnpack 10 256 b).map (· * 2 ^ 13 % dsaQ)))
    let w := List.zipWith (fun row t => dsaRing.intt (dsaRing.sub (dsaDot row nz) (dsaMul c t))) (dsaMatrix (pub.take 32)) t1
    let w1 := List.zipWith (fun p hs => p.zipIdx.map (fun x => useHint (hs.contains x.2) x.1)) w h
    decide (maxAbs z < 2 ^ 19 - 196) && dsaChallenge (dsaMu pub ctx msg) w1 == ch

end Sys2Proof.Machine
end

