-- ==== Sys2Proof/Config.lean ====
section
/-! DEFINITION. What the spec leaves open: constants with no body, so that no proof can rest on a value. Each is named in the assumption log. -/
namespace Sys2Proof.Config

/-- The n-th word of the internal random source (log 6). -/
opaque rand : Nat → Word

/-- Internal fault codes of R611, by the kind of fault (log 7). -/
opaque faultCode : Nat → BitVec 16

/-- M_ROM of R159: the digest of a ROM whose content the spec does not give (log 8). -/
opaque romDigest : List Byte

/-- The Sundenpex factory authority key of R723, 96 bytes (log 8). -/
opaque factoryAuthority : List Byte

/-- The microcode set's version and its stated cycle counts (R391, R421; log 9). -/
opaque microcodeVersion : Nat → BitVec 24
opaque programCycles : Nat → BitVec 32

/-- A certificate verifies under a key: the spec names no signature algorithm for it (R518, R633; log 11). -/
opaque certSigned : List Byte → List Byte → Bool

/-- Core memory seen by a debug read, the reach of a core, and whether a read has a side effect: core code, word address (R686, R690; log 12). -/
opaque peek : Nat → Nat → Word
opaque reaches : Nat → Nat → Bool
opaque hasSideEffect : Nat → Nat → Bool

/-- The pins as SAMPLE/PRELOAD captures them (R704; log 12). -/
opaque pins : Nat → BitVec 72

/-- A value the spec gives no rule for on the given operands: which value, operands (log 13). -/
opaque unstated : Nat → List Nat → Nat

end Sys2Proof.Config
end

