-- ==== Sys2Proof/Machine/State.lean ====
section
/-! DEFINITION. Everything the spec gives the KV4856 to hold, as plain data, the reasons a step could stop, and the state after reset. -/
namespace Sys2Proof.Machine

/-- No command of this block ends in a fault: the spec gives every row an effect, and a failure inside the device is a
status or an alert in the state. The one constructor is raised by nobody (safe). -/
inductive Fault where
  /-- Raised by nobody; safe. -/
  | none
  deriving DecidableEq, Repr

/-- Why a command has no meaning. -/
inductive Refusal where
  /-- Raised by an arm of `exec` that has no meaning yet; safe. -/
  | notModelled (mnemonic : String)
  deriving DecidableEq, Repr

/-- Lifecycle states, in the order of the state codes (R169). -/
inductive Lifecycle where
  | blank
  | manufacture
  | personalised
  | field
  | returned
  | departed
  | scorched
  deriving DecidableEq, Repr

/-- Power states of R52, with the two states in which no supply or no core runs. -/
inductive Power where
  | off
  | active
  | idle
  | standby
  | hibernate
  | backup
  | shutdown
  deriving DecidableEq, Repr

inductive Quality where
  | confirmed
  | unconfirmed
  | uncertain
  deriving DecidableEq, Repr

-- 05_host_link

/-- A session binds one tenant, one port and one id to a pair of keys (R206-R221). -/
structure Session where
  id : Byte := 0
  tenant : Byte := 0
  /-- Bit 0 ENCRYPT, bit 1 ADMIN. -/
  options : Byte := 0
  /-- Idle timeout in s. -/
  idle : Nat := 600
  kenc : List Byte := []
  kmac : List Byte := []
  /-- The last accepted request counter and the next reply counter (R218). -/
  reqCtr : Nat := 0
  repCtr : Nat := 1
  /-- Consecutive SESSION_MAC or REPLAY outcomes (R219). -/
  bad : Nat := 0
  /-- Tick of the last verified request (R221). -/
  seen : Nat := 0
  /-- Closed by the SESSION_CLOSE of this id, whose reply still carries a MAC (R234). -/
  closing : Option Nat := none
  /-- Number of the opening: ids are used again, an opening is not (R221, R223). -/
  opened : Nat := 0
  deriving DecidableEq, Repr

structure PortRegs where
  /-- Words of the partial frame in offset order; empty when none (RX_BUSY). -/
  rx : List Word := []
  /-- The frame being received has already been answered or discarded; its rest is ignored (R194). -/
  rxDead : Bool := false
  attn : BitVec 12 := 0
  mask : BitVec 12 := 0xFFF
  discard : Byte := 0
  admitting : Bool := false
  heard : Nat := 0
  sessions : List Session := []
  /-- Request-ring words held by accepted frames (R203). -/
  rxUsed : Nat := 0
  deriving DecidableEq, Repr

/-- A completed command on its way to a reply. -/
structure Reply where
  req : Req := {}
  status : Byte := 0
  words : List Word := []
  /-- Payload length in bytes. -/
  bytes : Nat := 0
  /-- Completion tick (H2). -/
  tick : Nat := 0
  deriving DecidableEq, Repr

/-- Why a reply waits for a fixed time (R709, R208, R529). -/
inductive HeldKind where
  | refusal
  | sessionOpen
  | challenge
  deriving DecidableEq, Repr

structure Held where
  kind : HeldKind := .refusal
  reply : Reply := {}
  /-- The tick of its fixed time, where the spec gives it in ticks or ms (R208, R529). -/
  due : Nat := 0
  deriving DecidableEq, Repr

/-- One reply in a reply ring or refusal slot: its tag and its wire words. -/
structure RingReply where
  tag : BitVec 16 := 0
  words : List Word := []
  deriving DecidableEq, Repr

/-- Credits and rings of one port (R194-R203). -/
structure PortFlow where
  mailbox : Nat := 0
  ring : List RingReply := []
  refusal : Option RingReply := none
  /-- The head reply is the oldest of the ring and stays so until it is released, although the refusal slot has filled since (R178). -/
  ringHead : Bool := false
  deriving DecidableEq, Repr

structure Flow where
  a : PortFlow := {}
  b : PortFlow := {}
  deriving DecidableEq, Repr

-- 06_tenants_and_scheduling

/-- Resource use of one tenant (R243, R250, R285, R457). -/
structure TenantStat where
  tenant : Byte := 0
  laneUs : Nat := 0
  pkUs : Nat := 0
  urgent : Nat := 0
  quotaRefusals : Nat := 0
  deadlines : Nat := 0
  recDay : Nat := 0
  recCount : Nat := 0
  /-- Queue slots that SCH counts for the tenant (R245, R283). -/
  held : Nat := 0
  deriving DecidableEq, Repr

inductive LongState where
  | queued
  | running
  | suspendPending
  | suspended
  | cancelPending
  | done
  | failed
  | cancelled
  deriving DecidableEq, Repr

/-- A slot by tenant, index and generation. -/
structure SlotRef where
  tenant : Byte := 0
  index : Nat := 0
  gen : Nat := 0
  deriving DecidableEq, Repr

/-- A JOURNAL_EXPORT operation (R458). -/
structure ExportOp where
  main : Bool := true
  first : Nat := 0
  next : Nat := 0
  last : Nat := 0
  nonce : Word := 0
  chunk : Nat := 0
  key : List Byte := []
  slot : SlotRef := {}
  deriving DecidableEq, Repr

/-- A cipher stream's saved state (R363-R369). -/
structure StreamOp where
  slot : SlotRef := {}
  key : List Byte := []
  mode : Nat := 0
  dec : Bool := false
  level : Nat := 1
  tlen : Nat := 0
  iv : List Byte := []
  aad : List Byte := []
  total : Nat := 0
  release : Bool := false
  data : List Byte := []
  deriving DecidableEq, Repr

/-- An RSA_KEYGEN operation (R410, R411): its command, template, candidate and primes, and the operand slots it holds. -/
structure RsaOp where
  req : Req := {}
  template : List Word := []
  candidate : Option Nat := none
  tests : Nat := 0
  p : Option Nat := none
  q : Option Nat := none
  programs : Nat := 0
  slots : Nat := 0
  part : Nat × Nat := (0, 8)
  /-- A program of the operation is on an engine. -/
  inWork : Bool := false
  /-- Flacon words and modulus of a finished operation. -/
  result : Option (List Word × List Byte) := none
  deriving DecidableEq, Repr

/-- What each kind of long operation keeps. -/
inductive LongData where
  | exportOf (x : ExportOp)
  | rewrap (mask : Byte) (ceiling : Word)
  | stage
  | stream (x : StreamOp)
  | hashStream (alg : Nat) (data : List Byte)
  | rsa (x : RsaOp)
  | applet (a : AppletRef) (input : List Word) (bytes : Nat)
  deriving DecidableEq, Repr

/-- A live long operation (R262-R273). -/
structure LongOp where
  handle : BitVec 24 := 0
  kind : Nat := 0
  tenant : Byte := 0
  state : LongState := .running
  status : Byte := 0
  units : Nat := 0
  total : Nat := 0
  gen : Nat := 0
  origin : Origin := .port .a
  deadline : Nat := 0
  endTick : Nat := 0
  suspTick : Nat := 0
  /-- Admission number of the command that started it (R266). -/
  cmd : Nat := 0
  /-- Started by an internal trigger: its handle goes at its final state and no LONG_DONE is set (R670). -/
  internal : Bool := false
  /-- End code, PC, trap value, fuel and output of a finished APPLET_RUN (R682). -/
  result : List Word := []
  resultBytes : Nat := 0
  data : LongData := .stage
  deriving DecidableEq, Repr

structure Sched where
  stats : List TenantStat := []
  window : Nat := 0
  /-- Rest of the shares of bands 1 to 3 in the current round (R251). -/
  shares : List Nat := [8, 4, 1]
  /-- Tenant served last in bands 0 to 3. -/
  lastTenant : List (Option Byte) := [none, none, none, none]
  /-- ENGINE_OCCUPANCY: most lanes and most engines busy, per 4-tick bucket, oldest first (R285). -/
  buckets : List (Nat × Nat) := []
  tableBroken : Bool := false
  longs : List LongOp := []
  nextHandle : BitVec 24 := 1
  /-- The entries of the queue slots: the admission number of the command that holds the slot, and its tenant (R278). -/
  slots : List (Nat × Byte) := []
  /-- Tenants whose held count differed from their entries: not admitted until the recount (R283). -/
  mismatched : List Byte := []
  deriving DecidableEq, Repr

-- 03_time_and_distance

/-- Rows of the clock verdicts table (R69). -/
inductive Verdict where
  | noFault
  | stopped
  | crystalWrong
  | rcFaulty
  | pllFaulty
  | multiple
  deriving DecidableEq, Repr

structure Counter where
  index : Nat := 0
  holder : Byte := 0xFF
  value : Word := 0
  deriving DecidableEq, Repr

/-- A tick checkpoint: its tick value and the pulse counter in it (R75, R720). -/
structure Checkpoint where
  value : Nat := 0
  pulses : Nat := 0
  deriving DecidableEq, Repr

structure TimeState where
  tick : Word := 0
  onRc : Bool := false
  coreRc : Bool := false
  verdict : Verdict := .noFault
  c1Ok : Bool := true
  /-- C1's count of the last window, in RC cycles (R68). -/
  c1Count : Nat := 0
  c2Ok : Bool := true
  c3Ok : Bool := true
  stopped : Bool := false
  passSince : Option Nat := none
  rcPhase : Nat := 0
  quality : Quality := .unconfirmed
  rcTicks : Nat := 0
  offset : Word := 0
  adjusts : List (Nat × Nat) := []
  leaps : List Nat := []
  corrections : BitVec 24 := 0
  nonce : Option (Word × Word × Nat) := none
  /-- The 16 NVM rows over which the two copies of a checkpoint rotate, and the row of the next first copy (R75). -/
  ckptRows : List (Option Checkpoint) := List.replicate 16 none
  ckptRow : Nat := 0
  ckptDue : Option Nat := none
  ckptFirst : Option Nat := none
  ckptAt : Nat := 0
  ckptFault : Bool := false
  alarms : List (Byte × Nat) := []
  fired : List Byte := []
  bucket : Nat := 0
  bucketAt : Nat := 0
  counters : List Counter := []
  deriving DecidableEq, Repr

structure DistState where
  pulses : Word := 0
  db : Word := 0
  pb : Word := 0
  k : Nat := 8000
  moving : Bool := false
  speed : Nat := 0
  /-- Speed of the last gate (R665). -/
  gateSpeed : Nat := 0
  /-- Sample periods of the pulses of the last second, newest first, and of the last two pulses since MOVING. -/
  recent : List Nat := []
  last : Option Nat := none
  previous : Option Nat := none
  gate : Nat := 0
  /-- Pulses counted in a 0.25 s gate, by the gate's number; the newest two gates that saw a pulse (R94). -/
  gatePulses : List (Nat × Nat) := []
  overCeil : Nat := 0
  underCeil : Nat := 0
  implausible : Bool := false
  /-- Newest GNSS sample with a 3D fix: speed and admission tick (R95). -/
  gnss : Option (Nat × Nat) := none
  disagree : Nat := 0
  agree : Nat := 0
  conflict : Bool := false
  overRun : Nat := 0
  overMax : Nat := 0
  underRun : Nat := 0
  overspeed : Bool := false
  wPrime : Nat := 21
  deriving DecidableEq, Repr

-- 04_lifecycle_fuses_boot

/-- One fuse word's two copies of 48 data bits. -/
structure FuseCell where
  copy0 : Word := 0
  copy1 : Word := 0
  deriving DecidableEq, Repr

structure FuseState where
  cells : List FuseCell := List.replicate 96 {}
  shadow : List Word := List.replicate 96 0
  /-- Marginal words, and for step words the bits of the marginal groups (R132, R133). -/
  marginal : List (Nat × Word) := []
  unusable : List Nat := []
  /-- How many of the thresholds 0, 40, 80 and 120 degC the junction is above, with the hysteresis of R136. -/
  above : List Bool := [true, false, false, false]
  /-- Words that drift has marked marginal since the last start (R137). -/
  drifted : List Nat := []
  /-- A start has sensed the array: the shadow holds a state that a later sensing can move on (R29, R119; the model's own). -/
  sensed : Bool := false
  deriving DecidableEq, Repr

/-- Start-up, lifecycle and identity state that is not a fuse. -/
structure BootState where
  progress : Byte := 0
  fallback : Bool := false
  /-- Reset causes latched since the last start and the word of the last start (R139). -/
  cause : BitVec 11 := 1
  lastCause : BitVec 11 := 1
  /-- Power-up phase from which the active domain starts next (R140). -/
  phase : Nat := 2
  /-- SEC runs (after step 12 of R143). -/
  running : Bool := false
  marker : Option Lifecycle := none
  /-- State left by the open transition of `marker`. -/
  markerFrom : Lifecycle := .blank
  scorchPending : Bool := false
  /-- The marker is in force because R128 did not hold at the last start (R120). -/
  markerActive : Bool := false
  /-- Boot record outcomes of slot A, slot B, port A, port B and fallback (R166, R444). -/
  sources : List Nat := [0, 0, 0, 0, 0]
  repairs : Nat := 0
  secMinor : Nat := 0
  /-- Sources still to try after the one waited for. -/
  rest : List Nat := []
  waitSince : Nat := 0
  pushStarted : Bool := false
  /-- Word 1 of the pushed bundle's header has arrived (R149). -/
  pushHeader : Bool := false
  /-- PF_N cut a bundle fetch or a push: the ROM begins again with the first source (R161). -/
  refetch : Bool := false
  lastChunk : Nat := 0
  push : List Word := []
  mRom : List Byte := []
  mFuse : List Byte := []
  mLifecycle : List Byte := []
  mPattern : List Byte := []
  input : BootIn := {}
  /-- Tick of the last start and of the last interruption (POWER record). -/
  offSince : Option Nat := none
  /-- Tick of the last ROM entry, from which the watchdogs count at first (R141). -/
  enteredAt : Nat := 0
  deriving DecidableEq, Repr

-- 02_package_power_electrical

structure PowerState where
  state : Power := .off
  pfn : Bool := false
  throttle : Bool := false
  temps : List Int := [400, 400, 400, 400]
  vdd : Nat := 3300
  /-- Rail levels: none below 1.0 V, else true for the 3.3 V class (R34-R36). -/
  railA : Option Bool := none
  railB : Option Bool := none
  railM : Option Bool := none
  /-- A MGMT_POWER request that waits for a handover or a succession (R619). -/
  deferred : Option Power := none
  /-- Ticks of the last cluster or engine work and of the last accepted frame (R52, R620). -/
  workAt : Nat := 0
  frameAt : Nat := 0
  /-- An always-on state loss is to be restored at the next start (R76). -/
  aonLost : Bool := true
  /-- Commands in progress when PF_N was recognised, and those whose NVM write has ended since (R50). -/
  pfnCmds : List Req := []
  pfnReplies : List Reply := []
  /-- Start-up after HIBERNATE ends in STANDBY (R52). -/
  standbyAfter : Bool := false
  /-- The core rail has held start-up in phase 3, this many mV off; SUPPLY_GLITCH follows once tamper handling runs (R60). -/
  coreFault : Option Nat := none
  deriving DecidableEq, Repr

-- 07_keys

structure Nonce where
  fixed : Word := 0
  next : Nat := 0
  limit : Nat := 0
  /-- A reservation commit failed; encryption is refused until the next start (R384). -/
  broken : Bool := false
  attempted : Nat := 0
  /-- A reservation commit is under way (R348, R354). -/
  reserving : Bool := false
  deriving DecidableEq, Repr

/-- One copy of a persistent slot in the persistent key store: AES-256-GCM under the store key (R308). -/
structure StoreCopy where
  iv : List Byte := []
  cipher : List Byte := []
  tag : List Byte := []
  deriving DecidableEq, Repr

structure Slot where
  tenant : Byte := 0
  index : Nat := 0
  gen : Nat := 0
  ktype : Nat := 0
  usages : Byte := 0
  streamRel : Bool := false
  /-- The clear material, while the slot has a cache entry. -/
  material : List Byte := []
  descriptor : Word := 0
  epoch : Nat := 0
  expiry : Word := 0
  /-- Header words F0-F5 of the flacon the material came from (R314). -/
  policy : Option (List Word) := none
  nonce : Option Nonce := none
  resident : Bool := false
  /-- The write that took the generation has not completed (R322, R323). -/
  writing : Bool := false
  copy0 : Option StoreCopy := none
  copy1 : Option StoreCopy := none
  deriving DecidableEq, Repr

/-- A flacon unwrapped ahead of dispatch (R274). -/
structure Staged where
  id : Nat := 0
  tenant : Byte := 0
  entries : Nat := 1
  material : List Byte := []
  deriving DecidableEq, Repr

/-- One of the two cell sets: the two shares, each under the mask held beside it (R288). -/
structure KeyCells where
  share0 : List Byte := []
  mask0 : List Byte := []
  share1 : List Byte := []
  mask1 : List Byte := []
  deriving DecidableEq, Repr

/-- A heart key that SEC holds under a mask (R292). -/
structure Heart where
  tenant : Byte := 0
  epoch : Nat := 0
  masked : List Byte := []
  mask : List Byte := []
  deriving DecidableEq, Repr

structure KeyState where
  /-- The base key's cell sets; an erased set is none (R288). -/
  cellsA : Option KeyCells := none
  cellsB : Option KeyCells := none
  lastStore : Nat := 0
  /-- The key register of the derivation path (R290). -/
  keyReg : List Byte := List.replicate 32 0
  /-- Heart keys held, most recently used first (R292). -/
  hearts : List Heart := []
  /-- All slots; the least recently used comes first (R307). -/
  slots : List Slot := []
  volGen : BitVec 28 := 1
  perGen : BitVec 28 := 1
  epochs : List (Byte × Nat) := []
  staged : List Staged := []
  zeroising : Nat := 0
  fencedEntries : Nat := 0
  derivationOk : Bool := true
  deriving DecidableEq, Repr

-- 08_symmetric_and_hash

/-- A job on a lane with its pinned key (R321). -/
structure CipherJob where
  req : Req := {}
  slot : SlotRef := {}
  key : List Byte := []
  mode : Nat := 0
  dec : Bool := false
  iv : List Byte := []
  aad : List Byte := []
  data : List Byte := []
  tag : List Byte := []
  tlen : Nat := 0
  level : Nat := 1
  blocks : Nat := 0
  retried : Bool := false
  revoked : Bool := false
  /-- The stream a chunk belongs to, and whether it is the last chunk. -/
  stream : Option (BitVec 24) := none
  last : Bool := false
  /-- The cluster that a retry keeps away from (R371). -/
  avoid : Option Nat := none
  /-- FLASH fired in the quantum, whose output is withheld (R480). -/
  withheld : Bool := false
  deriving DecidableEq, Repr

structure Lane where
  fenced : Bool := false
  job : Option CipherJob := none
  mismatches : List Nat := []
  owesKat : Bool := false
  /-- The basting-key register, and the cycles that the last quantum took (R357). -/
  bastingKey : List Byte := List.replicate 16 0
  cycles : Nat := 0
  deriving DecidableEq, Repr

structure Cluster where
  fenced : Bool := false
  lastExpiry : Option Nat := none
  hashFenced : Bool := false
  deriving DecidableEq, Repr

structure SymState where
  lanes : List Lane := List.replicate 9 {}
  clusters : List Cluster := List.replicate 4 {}
  /-- The lane LS stands in for (R376). -/
  standIn : Option Nat := none
  randomOk : Bool := true
  /-- Jobs between two quanta, oldest first (R252). -/
  waiting : List CipherJob := []
  deriving DecidableEq, Repr

-- 09_public_key

/-- What a program works on; the work of a command that a public-key program serves but that another chapter defines is that command. -/
inductive PkWork where
  | sign (scheme : Nat) (key msg : List Byte) (salt : Nat)
  | verify (scheme : Nat) (pub sig ctx msg : List Byte) (salt : Nat)
  | agree (alg mode : Nat) (key peer : List Byte) (target : Nat) (desc : Word) (label : List Word)
  | kemPublic (seed : List Byte)
  | rsa (handle : BitVec 24)
  | keyPublic (ktype : Nat) (key : List Byte)
  /-- Key generation for FLACON_CREATE and KEY_PERSIST (R316). -/
  | generate
  /-- The chain of a SESSION_OPEN with the key its signature is verified against: key type, 0 for one drawn at random, and public key
  (R207, R208). -/
  | session (ktype : Nat) (key : List Byte)
  deriving DecidableEq, Repr

structure PkJob where
  req : Req := {}
  prog : Nat := 0
  /-- Programs that follow on the same engine (R208), and the ticks at which the first one and this one started. -/
  chain : List Nat := []
  began : Nat := 0
  started : Nat := 0
  tenant : Byte := 0
  /-- Operand slots held, and the partition's KiB and slot width they are of (R394, R395, R400). -/
  slots : Nat := 0
  part : Nat × Nat := (0, 8)
  slot : Option SlotRef := none
  work : PkWork := .kemPublic []
  retried : Bool := false
  revoked : Bool := false
  /-- The command no longer waits for the program (R46, R50). -/
  abandoned : Bool := false
  /-- The engine that a retry keeps away from (R417). -/
  avoid : Option Nat := none
  /-- FLASH fired while the program ran, and its output is withheld (R480). -/
  withheld : Bool := false
  deriving DecidableEq, Repr

structure Engine where
  fenced : Bool := false
  job : Option PkJob := none
  fails : List Nat := []
  deriving DecidableEq, Repr

structure PkState where
  engines : List Engine := List.replicate 2 {}
  /-- Programs that wait for their retry on an engine (R417). -/
  waiting : List PkJob := []
  deriving DecidableEq, Repr

-- 10_journal

/-- A closed segment of a stream (R427-R431). -/
structure Segment where
  main : Bool := true
  index : Nat := 0
  ordinal : Nat := 0
  openTick : Nat := 0
  header : List Word := []
  body : List Word := []
  trailer : List Word := []
  exported : Bool := false
  hasTamper : Bool := false
  hasHem : Bool := false
  deriving DecidableEq, Repr

/-- The one open segment of a stream: header, words used so far and delta bases per record type (R441, R442). -/
structure OpenSegment where
  index : Nat := 0
  ordinal : Nat := 0
  openTick : Nat := 0
  header : List Word := []
  body : List Word := []
  bases : List (Nat × List Int) := []
  hasTamper : Bool := false
  hasHem : Bool := false
  deriving DecidableEq, Repr

structure Stream where
  nextSeq : Word := 0
  cur : Option OpenSegment := none
  nextOrdinal : Nat := 0
  prevTrailer : List Word := List.replicate 8 0
  deriving DecidableEq, Repr

/-- A record whose phase 1 is written: its place in the open segment and what its commit makes the delta base (R445). -/
structure OpenRecord where
  main : Bool := true
  position : Nat := 0
  rtype : Nat := 0
  /-- TICK, DIST and the type's fields: the delta base the commit makes. -/
  fields : List Int := []
  seq : Word := 0
  tq : Nat := 0
  /-- Phase 2 has been written ahead of another record (R447, R463). -/
  done : Bool := false
  deriving DecidableEq, Repr

structure Stub where
  ordinal : Nat := 0
  lastOrdinal : Nat := 0
  words : List Word := []
  deriving DecidableEq, Repr

structure Summary where
  rtype : Nat := 0
  sub : Nat := 0
  count : Nat := 0
  first : Nat := 0
  last : Nat := 0
  total : Nat := 0
  deriving DecidableEq, Repr

/-- A record of the device's own that waits until SEC may write NVM: PF_N is recognised, or SEC does not run yet (R46, R158). -/
structure Deferred where
  rtype : Nat := 0
  tq : Nat := 0
  vals : List Int := []
  /-- TICK and DIST are not yet in `vals`: they are those of the append. -/
  unstamped : Bool := false
  deriving DecidableEq, Repr

structure JournalState where
  created : Bool := false
  main : Stream := {}
  tamper : Stream := {}
  segments : List Segment := []
  stubs : List Stub := []
  receipted : Option Nat := none
  receiptedTamper : Option Nat := none
  summary : List Summary := []
  hemDeferred : Bool := false
  sealed : Bool := false
  readOnly : Bool := false
  /-- 75 % pressure has been signalled (R454). -/
  pressure : Bool := false
  retired : List Nat := []
  vertices : List (BitVec 24) := []
  traceAt : Nat := 0
  mirrorAt : Nat := 0
  foldAt : Nat := 0
  lastPatternRec : Nat := 0
  /-- Highest TICK and DIST of the records in the journal (R76, R720). -/
  maxTick : Nat := 0
  maxDist : Nat := 0
  driver : Option (Nat × Nat) := none
  codriver : Option (Nat × Nat) := none
  deferred : List Deferred := []
  deriving DecidableEq, Repr

-- 11_tamper

/-- A confirmation kept in the always-on domain (R500) or waiting for its record. -/
structure Latch where
  src : Nat := 0
  tick : Nat := 0
  dist : Nat := 0
  value : BitVec 24 := 0
  level : Nat := 0
  /-- FLAGS of the record: bit 0 latched, bit 1 raised by a fuse, bit 2 in the ROM, bit 3 injected. -/
  flags : Nat := 0
  deriving DecidableEq, Repr

structure SourceState where
  confirmed : Bool := false
  level : Nat := 0
  count : Nat := 0
  latch : Option Latch := none
  responded : Bool := false
  value : BitVec 24 := 0
  deriving DecidableEq, Repr

structure TamperState where
  sources : List SourceState := List.replicate 29 {}
  holdEnd : Nat := 0
  recordsSince : Nat := 0
  /-- Level of a response that has begun and not finished (R491), and the confirmations its phase 4 records (R498). -/
  response : Option Nat := none
  waiting : List Latch := []
  l3Latch : Bool := false
  /-- A VDD_UNDER confirmation in its 64-tick hold (R479). -/
  underHold : Option Latch := none
  /-- Sources whose L2 response bars heart keys while they stay confirmed (R505). -/
  barred : List Nat := []
  deriving DecidableEq, Repr

-- 12_attestation

structure DeviceKey where
  ecPrivate : List Byte := []
  ecPublic : List Byte := []
  pqPrivate : List Byte := []
  pqPublic : List Byte := []
  deriving DecidableEq, Repr

structure AttestState where
  key : Option DeviceKey := none
  cert0 : Option (List Byte) := none
  cert1 : Option (List Byte) := none
  cert2 : Option (List Byte) := none
  window : Nat := 0
  statements : Nat := 0
  responses : Nat := 0
  deriving DecidableEq, Repr

-- 13_patterns

/-- One pattern bank (R541): K0's state, the image, its stored digest and K1. -/
structure Bank where
  /-- none erased, some true valid, some false pending. -/
  k0 : Option Bool := none
  gen : Nat := 0
  image : List Word := []
  digest : List Byte := []
  k1 : Nat := 0
  deriving DecidableEq, Repr

structure Staging where
  image : List Word := []
  base : Nat := 0
  edits : Nat := 0
  deriving DecidableEq, Repr

/-- A commit whose K0 is valid and whose switch is due at tick K1 (R551). -/
structure SwitchDue where
  inB : Bool := false
  gen : Nat := 0
  k1 : Nat := 0
  req : Option Req := none
  revert : Bool := false
  deriving DecidableEq, Repr

structure PatternState where
  bankA : Bank := {}
  bankB : Bank := {}
  /-- The running image and its generation; in MANUFACTURE generation 0 (R542). -/
  image : List Word := []
  gen : Nat := 0
  /-- Switch tick of the running generation (PATTERN_INFO W1). -/
  switched : Nat := 0
  curInB : Bool := false
  old : Option (Nat × List Word) := none
  staging : Option Staging := none
  highest : Nat := 0
  day : Nat := 0
  commits : Nat := 0
  due : Option SwitchDue := none
  live : List (Byte × Nat) := []
  high : List (Byte × Nat) := []
  keptOwner : List Word := []
  keptRecorder : List Word := []
  deriving DecidableEq, Repr

-- 14_firmware

/-- A running component: type, build identifier, digest (R159, R606). -/
structure Component where
  ctype : Nat := 0
  build : Nat := 0
  digest : List Byte := []
  deriving DecidableEq, Repr

structure StageState where
  target : Nat := 0
  slot : Nat := 0
  handle : BitVec 24 := 0
  words : List Word := []
  /-- Words kept without a staging slot. -/
  complete : Bool := false
  deriving DecidableEq, Repr

structure HandoverState where
  ctype : Nat := 0
  phase : Nat := 0
  newBuild : Nat := 0
  /-- Words HR0-HR12 of the handover record, once the old image has written it (R595). -/
  record : List Word := []
  seamTick : Nat := 0
  began : Nat := 0
  req : Req := {}
  deriving DecidableEq, Repr

structure LogEntry where
  tick : Word := 0
  core : Byte := 0
  point : Nat := 0
  seq : BitVec 24 := 0
  arg0 : Word := 0
  arg1 : Word := 0
  deriving DecidableEq, Repr

/-- One command on the NOR flash port: instruction byte, address, dummy cycles (R146, R147, R585). -/
structure FlashRead where
  command : Byte := 0
  address : BitVec 24 := 0
  dummy : Nat := 0
  deriving DecidableEq, Repr

/-- Who the region table grants a region to (R576): a core, an applet's sandbox, the engines' DMA. -/
inductive Reacher where
  | subject (s : Subject)
  | dma
  deriving DecidableEq, Repr

/-- The regions of the reach table (R576). -/
inductive Region where
  | secSram
  | keyCache
  | derivation
  | nvm
  | healthStore
  | fuses
  | operandMemory
  | sharedSram
  | linkBuffers
  | regionTable
  | pmcRegion
  | sensors
  | mgmtBuffers
  | logRing
  | schRegion
  | mailboxes
  | queueState
  | dispatch
  | payload
  | clusterSram (n : Fin 4)
  | laneControl (n : Fin 4)
  | hashUnit (n : Fin 4)
  | appletCode
  | appletData
  deriving DecidableEq, Repr

/-- One grant of the region table; a locked one stays until the next restart (R575). -/
structure RegionEntry where
  who : Reacher := .dma
  region : Region := .payload
  locked : Bool := false
  deriving DecidableEq, Repr

structure FirmwareState where
  /-- The region table (R575). -/
  regions : List RegionEntry := []
  /-- The external flash's two slots (DESIGN CHOICE, log 38). -/
  slotA : List Word := []
  slotB : List Word := []
  /-- What the ROM has issued on the flash port since its entry, oldest first (R146, R147), and then SEC's last sequence of writes
  (R585). -/
  flashBus : List FlashRead := []
  fallback : List Word := []
  /-- 0x01 slot A, 0x02 slot B, 0x03 port A, 0x04 port B, 0x05 fallback. -/
  source : Nat := 0
  bootMode : Nat := 0
  running : List Component := []
  /-- Header words 0-3 of the bundle that runs. -/
  header : List Word := []
  committed : Nat := 0
  /-- Directory: component types with an adopted build still pending, and that build (R596). -/
  pendingTypes : List (Nat × Nat) := []
  stage : Option StageState := none
  loaded : Option (Nat × List Word × Bool) := none
  handover : Option HandoverState := none
  log : List LogEntry := []
  logSeq : BitVec 24 := 0
  /-- Entries that the FIFOs of R579 dropped: none (DESIGN CHOICE, log 90). -/
  drops : Nat := 0
  /-- FW_EVENT records that wait for SEC to run: component, event, ARG. -/
  owed : List (Nat × Nat × Nat) := []
  deriving DecidableEq, Repr

-- 15_service_life

structure MgmtState where
  alert : BitVec 12 := 0
  amask : BitVec 12 := 0xFFF
  faultCode : BitVec 16 := 0
  faultCount : Byte := 0
  window : List Word := []
  /-- Words of the window that the write transaction in progress has brought (R63). -/
  taken : Nat := 0
  busy : Option Req := none
  reply : Option (List Word) := none
  readAt : Nat := 0
  counter : Word := 0
  bad : Nat := 0
  lockEnd : Option Nat := none
  address : BitVec 7 := 0x5A
  nextAddress : BitVec 7 := 0x5A
  /-- Health store: the last 64 confirmations kept, the last 64 faults, extremes, counts of throttles and shutdowns. -/
  kept : List Latch := []
  faults : List (Nat × BitVec 16) := []
  /-- Lifecycle transitions that no journal took (R122, R495): tick, from, to. -/
  transitions : List (Nat × Nat × Nat) := []
  minTemp : Int := 400
  maxTemp : Int := 400
  throttles : Nat := 0
  shutdowns : Nat := 0
  /-- Ticks spent in ACTIVE, IDLE, STANDBY, HIBERNATE and BACKUP. -/
  stateTicks : List Nat := List.replicate 5 0
  traceCopy : List (BitVec 24) := []
  traceCopyTick : Nat := 0
  deriving DecidableEq, Repr

/-- The area's own write that phase 1 has left to be committed (R718). -/
inductive NvmEffect where
  | counter (index : Nat) (value : Word)
  | slot (s : Slot)
  | erase (tenant : Byte) (index revoked : Nat)
  | epoch (tenant : Byte) (value : Nat)
  | record (x : OpenRecord)
  | summary (rtype : Nat) (vals : List Int)
  | offset (value : Word) (path : Nat) (confirm : Bool) (tenant : Byte)
  /-- The image write of a commit, and once K1 is fixed its K0-valid write (R551). -/
  | pattern (inB : Bool) (gen : Nat) (revert : Bool) (k1 : Option Nat)
  deriving DecidableEq, Repr

structure NvmWrite where
  req : Option Req := none
  effect : NvmEffect := .counter 0 0
  deriving DecidableEq, Repr

/-- A two-phase commit that raises a slot's nonce limit, and the admission number of the command that waits for it (R348). -/
structure Reservation where
  id : Nat := 0
  tenant : Byte := 0
  index : Nat := 0
  deriving DecidableEq, Repr

structure NvmState where
  writes : List NvmWrite := []
  /-- Nonce-reservation commits in progress, oldest first (R348, R354). -/
  reservations : List Reservation := []
  spare : Nat := 256
  remaps : List (Nat × Nat) := []
  /-- Words corrected in the last scrub of a row (R628). -/
  lastScrub : List (Nat × List Nat) := []
  /-- An unwarned loss of VDD fell inside phase 2 of the oldest write (R718). -/
  phase2 : Bool := false
  deriving DecidableEq, Repr

/-- The pending copy of an incoming device, in the key store under the store key (R638), and its length in words. -/
structure PendingCopy where
  sealed : StoreCopy := {}
  words : Nat := 0
  digest : List Byte := []
  seqAtFreeze : Word := 0
  headAtFreeze : List Byte := []
  deriving DecidableEq, Repr

structure SuccState where
  /-- 0 none, 1 outgoing, 2 incoming, 3 DEPARTED. -/
  state : Nat := 0
  nonce : Option (List Word) := none
  began : Nat := 0
  peer : List Word := [0, 0]
  /-- P-384 public key of the peer's certificate 0. -/
  peerKey : List Byte := []
  ephEc : List Byte := []
  ephKem : List Byte := []
  cipher : List Word := []
  tag : List Word := []
  kt : List Byte := []
  receive : List Word := []
  pending : Option PendingCopy := none
  transitLive : Bool := false
  /-- SUCC_COMMIT has appended its intent record (R639 step 1). -/
  committing : Bool := false
  /-- Digest of the package ciphertext, LASTSEQ of the SEAL record and the journal head after it, for the departure block. -/
  digest : List Byte := []
  sealSeq : Word := 0
  sealHead : List Byte := []
  deriving DecidableEq, Repr

-- 16_applets

/-- A service call that waits for its reply (R660). -/
structure ServiceCall where
  id : Nat := 0
  buffer : Nat := 0
  capacity : Nat := 0
  deriving DecidableEq, Repr

structure Activation where
  handle : BitVec 24 := 0
  started : Bool := false
  trigger : Nat := 1
  /-- Trigger registers W1 on (R665). -/
  init : List Word := []
  regs : List Word := List.replicate 16 0
  pc : Nat := 0
  fuel : Nat := 0
  budget : Nat := 0
  /-- Fuel at the last checkpoint (R671). -/
  mark : Nat := 0
  /-- Fuel whose running time has been charged (R655). -/
  charged : Nat := 0
  call : Option ServiceCall := none
  /-- The activation ends UNLOADED at its next suspension point: its applet goes, or its tenant is locked (R679). -/
  unload : Bool := false
  locked : Bool := false
  deriving DecidableEq, Repr

structure Applet where
  ref : AppletRef := { tenant := 0, id := 0 }
  version : Nat := 0
  build : Nat := 0
  image : List Word := []
  code : List (BitVec 24) := []
  data : List Word := []
  entries : List Nat := [0, 0, 0, 0]
  inputAt : Nat := 0
  cluster : Nat := 0
  loaded : Bool := true
  /-- Enabled triggers, codes 2 to 4. -/
  enabled : List Nat := []
  period : Nat := 0
  threshold : Nat := 0
  direction : Nat := 0
  /-- Pending internal firings: trigger code and registers. -/
  waiting : List (Nat × List Word) := []
  missed : Nat := 0
  activations : Nat := 0
  lastEnd : Nat := 0
  timerAt : Nat := 0
  act : Option Activation := none
  deriving DecidableEq, Repr

structure AppletState where
  applets : List Applet := []
  loads : List (AppletRef × List Word) := []
  deriving DecidableEq, Repr

-- 17_debug

structure DebugState where
  ir : BitVec 5 := 0x02
  attached : Bool := false
  peeked : Bool := false
  scanned : Bool := false
  haltRecords : Nat := 0
  halted : List Nat := []
  held : Option (BitVec 4) := none
  result : BitVec 4 := 0
  echoCore : BitVec 4 := 0
  echoAddr : BitVec 24 := 0
  data : Word := 0
  boundary : BitVec 72 := 0
  /-- Words that debug writes have left, by core code times 2^24 plus the word address, rising. -/
  memory : List (Nat × Word) := []
  deriving DecidableEq, Repr

/-- Everything but the flow-control rings and the queue of commands. -/
structure Dev where
  portA : PortRegs := {}
  portB : PortRegs := {}
  cmds : List Req := []
  laneReady : List Nat := []
  pkReady : List Nat := []
  held : List Held := []
  done : List Reply := []
  sched : Sched := {}
  time : TimeState := {}
  dist : DistState := {}
  fuse : FuseState := {}
  boot : BootState := {}
  power : PowerState := {}
  keys : KeyState := {}
  sym : SymState := {}
  pk : PkState := {}
  jrn : JournalState := {}
  tamper : TamperState := {}
  att : AttestState := {}
  pat : PatternState := {}
  fw : FirmwareState := {}
  mgmt : MgmtState := {}
  nvm : NvmState := {}
  succ : SuccState := {}
  app : AppletState := {}
  dbg : DebugState := {}
  rnd : Nat := 0
  nextId : Nat := 0
  deriving DecidableEq, Repr

/-- The machine: the device, its flow control, and the commands waiting, first in first out. -/
structure State where
  dev : Dev := {}
  flow : Flow := {}
  pending : List Instr := []
  deriving DecidableEq, Repr

/-- The machine after reset: an unprogrammed part before VDD first rises (log 4, log 5), every register at the value the spec
gives for reset, the rest as log 3 names. -/
def State.reset : State := {}

end Sys2Proof.Machine
end

