-- ==== Sys2Proof/Machine/Status.lean ====
section
/-! DEFINITION. Status codes (R707). -/
namespace Sys2Proof.Machine.St

def ok : Byte := 0x00
def accepted : Byte := 0x01
def frameCrc : Byte := 0x10
def frameLength : Byte := 0x11
def formatVersion : Byte := 0x13
def noCredit : Byte := 0x14
def sessionMac : Byte := 0x15
def replay : Byte := 0x16
def paramRange : Byte := 0x20
def opcodeUnknown : Byte := 0x21
def layoutRevision : Byte := 0x22
def policyRefused : Byte := 0x30
def quota : Byte := 0x31
def keyStale : Byte := 0x32
def keyRevoked : Byte := 0x33
def nonceExhausted : Byte := 0x34
def counterLimit : Byte := 0x35
def keyAbsent : Byte := 0x36
def busyRetry : Byte := 0x40
def suspended : Byte := 0x41
def cancelled : Byte := 0x42
def deadline : Byte := 0x43
def pkReject : Byte := 0x50
def authFail : Byte := 0x51
def journalPressure : Byte := 0x60
def journalSummarised : Byte := 0x61
def receiptInvalid : Byte := 0x62
def tamperHold : Byte := 0x70
def scorched : Byte := 0x71
def departed : Byte := 0x72
def fuseMarginal : Byte := 0x73
def fwStageInvalid : Byte := 0x80
def fwRollback : Byte := 0x81
def handoverFailed : Byte := 0x82
def patternInvalid : Byte := 0x90
def patternNoPrevious : Byte := 0x91
def internalFault : Byte := 0xF0

/-- A policy refusal, delivered at its fixed time (R709). -/
def isPolicy (s : Byte) : Bool := decide (0x30 ≤ s.toNat) && decide (s.toNat ≤ 0x36)

/-- A status that travels as itself only inside the session (R707). -/
def isSession (s : Byte) : Bool := decide (0x31 ≤ s.toNat) && decide (s.toNat ≤ 0x36)

end Sys2Proof.Machine.St
end

