-- ==== Sys2Proof/Machine/Operands.lean ====
section
/-! DEFINITION. How a command's parameter block is read and refused: words and fields, reserved bits (R9, R10), lengths. -/
namespace Sys2Proof
open Sys2Proof.Machine

def Req.w (r : Req) (i : Nat) : Word := r.words.getD i 0

def Req.f (r : Req) (i hi lo : Nat) : Nat := fld (r.w i) hi lo

/-- The opcode's class, its high byte (R705). -/
def Req.cls (r : Req) : Nat := r.opcode.toNat / 256

def Req.mac (r : Req) : Bool := r.flags.getLsbD 3

def Req.enc (r : Req) : Bool := r.flags.getLsbD 2

def Req.urgent (r : Req) : Bool := r.flags.getLsbD 1

def Req.long (r : Req) : Bool := r.flags.getLsbD 0

/-- The command counts as inside its tenant's authenticated session: a MAC-bearing frame, or an applet's service call (R662). -/
def Req.inSession (r : Req) : Bool :=
  match r.origin with
  | .port _ => r.mac
  | .applet _ => true
  | .mgmt => false

def Req.isApplet (r : Req) : Bool :=
  match r.origin with
  | .applet _ => true
  | _ => false

/-- The payload is exactly n words (log 16). -/
def Req.sized (r : Req) (n : Nat) : Bool := r.len == 6 * n

/-- The payload holds at least n words. -/
def Req.sizedMin (r : Req) (n : Nat) : Bool := decide (6 * n ≤ r.len)

/-- Payload bytes from word i on. -/
def Req.bytesFrom (r : Req) (i n : Nat) : List Byte := (wordsBytes (r.words.drop i)).take n

end Sys2Proof

namespace Sys2Proof.Machine

/-- Why a command is refused: its status, the reason of R339 or R126, and the payload words of a reply that carries some. -/
structure Rej where
  status : Byte
  reason : Nat := 0
  words : List Word := []
  /-- The heart key that the refused command had used: tenant and epoch (R292). -/
  heart : Option (Byte × Nat) := none
  deriving DecidableEq, Repr

/-- How a command leaves its step: with a reply, with the final reply of a long operation, stamped with that operation's generation
(R268), with a job that replies later, or not at all: it waits on. -/
inductive Done where
  | reply (status : Byte) (words : List Word) (bytes : Nat)
  | final (gen : Nat) (words : List Word) (bytes : Nat)
  | later
  | wait
  deriving DecidableEq, Repr

abbrev Res (α : Type) := Except Rej α

/-- A check of R708: the refusal when the condition does not hold. -/
def need (c : Bool) (st : Byte) (reason : Nat := 0) : Res Unit :=
  if c then .ok () else .error { status := st, reason := reason }

def rej {α : Type} (st : Byte) (reason : Nat := 0) : Res α := .error { status := st, reason := reason }

def param (c : Bool) : Res Unit := need c St.paramRange

/-- All bits outside the listed fields are zero (R7, R10). -/
def onlyBits (w : Word) (fs : List (Nat × Nat)) : Bool :=
  w == mkWord (fs.map (fun f => (f.1, f.2, fld w f.1 f.2)))

/-- The words of an operand of n bytes that starts at word i. -/
def wordsOf (n : Nat) : Nat := ceilDiv n 6

def okWords (d : Dev) (ws : List Word) : Res (Dev × Done) := .ok (d, .reply St.ok ws (6 * ws.length))

def okBytes (d : Dev) (ws : List Word) (bytes : Nat) : Res (Dev × Done) := .ok (d, .reply St.ok ws bytes)

def okNone (d : Dev) : Res (Dev × Done) := .ok (d, .reply St.ok [] 0)

def okLater (d : Dev) : Res (Dev × Done) := .ok (d, .later)

end Sys2Proof.Machine
end

