-- ==== Sys2Proof/Machine/Ops.lean ====
section
/-! DEFINITION. The shared operations over the device's registers: random draws, time, fuses and lifecycle, pattern fields,
tenant records, sparse stores. -/
namespace Sys2Proof

def Port.other : Port → Port
  | .a => .b
  | .b => .a

def Port.code : Port → Nat
  | .a => 0x0A
  | .b => 0x0B

def Port.credits : Port → Nat
  | .a => 64
  | .b => 32

def Port.ringSize : Port → Nat
  | .a => 12288
  | .b => 8192

def Port.payloadMax : Port → Nat
  | .a => 65532
  | .b => 49116

end Sys2Proof

namespace Sys2Proof.Machine

abbrev Out := Host.Outcome State Fault Refusal

-- Random source (log 6)

def draw (d : Dev) : Word × Dev := (Config.rand d.rnd, { d with rnd := d.rnd + 1 })

def drawWords : Nat → Dev → List Word × Dev
  | 0, d => ([], d)
  | n + 1, d => let p := draw d; let q := drawWords n p.2; (p.1 :: q.1, q.2)

/-- n random bytes, the low bytes of drawn words first. -/
def drawBytes (n : Nat) (d : Dev) : List Byte × Dev :=
  let p := drawWords (ceilDiv n 6) d
  ((wordsBytes p.1).take n, p.2)

/-- n words of the random source overwrite memory that nothing reads before it is written again. -/
def spendWords (n : Nat) (d : Dev) : Dev := { d with rnd := d.rnd + n }

-- Time

def Dev.now (d : Dev) : Nat := d.time.tick.toNat

/-- Ticks of a time in ms, rounded up (4,096 ticks per second). -/
def msTicks (ms : Nat) : Nat := ceilDiv (ms * 4096) 1000

def usTicks (us : Nat) : Nat := ceilDiv (us * 4096) 1000000

def Dev.setTime (d : Dev) (t : TimeState) : Dev := { d with time := t }

def Quality.code : Quality → Nat
  | .confirmed => 0
  | .unconfirmed => 1
  | .uncertain => 2

/-- The uncertainty bound of R78: 0.15 of the ticks counted on RC, plus 4,096, rounded up; 0 while CONFIRMED. -/
def uncertainty (t : TimeState) : Nat :=
  if t.quality = .confirmed then 0 else ceilDiv (15 * t.rcTicks) 100 + 4096

-- Fuses (R168-R172)

def Dev.shadow (d : Dev) (i : Nat) : Word := d.fuse.shadow.getD i 0

def Lifecycle.code : Lifecycle → Nat
  | .blank => 0
  | .manufacture => 1
  | .personalised => 2
  | .field => 3
  | .returned => 4
  | .departed => 5
  | .scorched => 6

def Lifecycle.ofCode : Nat → Option Lifecycle
  | 0 => some .blank
  | 1 => some .manufacture
  | 2 => some .personalised
  | 3 => some .field
  | 4 => some .returned
  | 5 => some .departed
  | 6 => some .scorched
  | _ => none

/-- Group g of a resolved step word with groups of n bits is blown (R131-R133). -/
def groupBlown (n g : Nat) (w : Word) : Bool := fld w (n * g + n - 1) (n * g) == 2 ^ n - 1

/-- The state a resolved LIFECYCLE word stands for (R169). -/
def lifecycleOf (w : Word) : Lifecycle :=
  if groupBlown 6 5 w then .scorched else if groupBlown 6 4 w then .departed else if groupBlown 6 3 w then .returned
  else if groupBlown 6 2 w then .field else if groupBlown 6 1 w then .personalised
  else if groupBlown 6 0 w then .manufacture else .blank

/-- The state in force: SCORCHED under its NVM marker (R492), the target of an open transition whose group could not be programmed at start (R120), else the fuses. -/
def Dev.lifecycle (d : Dev) : Lifecycle :=
  if d.boot.scorchPending then .scorched else
    match d.boot.marker with
    | some t => if d.boot.markerActive then t else lifecycleOf (d.shadow 0)
    | none => lifecycleOf (d.shadow 0)

def Dev.optionBlown (d : Dev) (g : Nat) : Bool := groupBlown 4 g (d.shadow 1)

/-- KV4856-D by its OPTIONS group (R168). -/
def Dev.isD (d : Dev) : Bool := d.optionBlown 4

def Dev.orderByte (d : Dev) : Nat := if d.isD then 2 else 1

def Dev.serial (d : Dev) : List Word := [d.shadow 2, d.shadow 3]

def Dev.serialBytes (d : Dev) : List Byte := wordsBytes d.serial

/-- The fuse security version: highest blown group of SECVER among 0-63, plus one (R155). -/
def Dev.secVersion (d : Dev) : Nat :=
  (List.range 64).foldl (fun acc g => if groupBlown 2 (g % 24) (d.shadow (0x0A + g / 24)) then g + 1 else acc) 0

def Dev.wordMarginal (d : Dev) (i : Nat) : Bool := d.fuse.marginal.any (fun m => m.1 == i)

/-- OPTIONS group g is marginal. -/
def Dev.optionMarginal (d : Dev) (g : Nat) : Bool :=
  d.fuse.marginal.any (fun m => m.1 == 1 && fld m.2 (4 * g + 3) (4 * g) != 0)

def isIdentity (i : Nat) : Bool := (decide (0x02 ≤ i) && decide (i ≤ 0x09)) || (decide (0x10 ≤ i) && decide (i ≤ 0x27))

/-- Identity attestation is refused with FUSE_MARGINAL (R135, R29). -/
def Dev.identityMarginal (d : Dev) : Bool :=
  d.fuse.marginal.any (fun m => isIdentity m.1 || m.1 == 0) || d.fuse.unusable.any (fun i => isIdentity i || i == 0)
    || d.optionMarginal 4

/-- The lifecycle word of R159. -/
def lifecycleWord (d : Dev) : Word := mkWord [(47, 40, d.lifecycle.code), (39, 32, d.orderByte)]

/-- The shadow as it enters M_FUSE: words 0x04-0x09 taken as zero (R159). -/
def fuseDigest (d : Dev) : List Byte :=
  sha384 (wordsBytes (d.fuse.shadow.mapIdx (fun i w => if 4 ≤ i ∧ i ≤ 9 then 0 else w)))

/-- Measurements that follow every shadow or lifecycle change (R159). -/
def remeasure (d : Dev) : Dev :=
  { d with boot := { d.boot with mFuse := fuseDigest d, mLifecycle := sha384 (wordBytes (lifecycleWord d)) } }

/-- The fuse programming window of R128, over the measured supply and the hottest sensor. -/
def fuseWindow (d : Dev) : Bool :=
  decide (3150 ≤ d.power.vdd) && decide (d.power.vdd ≤ 3600) &&
    d.power.temps.all (fun t => decide (-320 ≤ t) && decide (t ≤ 1680))

def hottest (d : Dev) : Int := d.power.temps.foldl max (d.power.temps.headD 0)

/-- A private scalar from derived or random output: (c mod (n - 1)) + 1 (R295); other types take the output itself. -/
def scalarFrom (kt : Nat) (out : List Byte) : List Byte :=
  match kt with
  | 0x10 => beBytes 32 (beNat out % (p256.n - 1) + 1)
  | 0x11 => beBytes 48 (beNat out % (p384.n - 1) + 1)
  | _ => out

-- Pattern image fields (R539)

def tenantCount (img : List Word) : Nat := (img.length - 480) / 20

def tenantTable (img : List Word) : List (List Word) := chunksOf 20 (tenantCount img) (img.drop 480)

def recTenant (rec : List Word) : Nat := fld (wd rec 0) 47 40

def tenantRec (img : List Word) (t : Byte) : Option (List Word) := (tenantTable img).find? (fun r => recTenant r == t.toNat)

/-- The image of a generation that is resident: the running one, or the old one of a mixed window (R562). -/
def Dev.image (d : Dev) (gen : Nat) : List Word :=
  match d.pat.old with
  | some (g, img) => if g == gen && gen != d.pat.gen then img else d.pat.image
  | none => d.pat.image

def Dev.cfg (d : Dev) (w hi lo : Nat) : Nat := fld (wd d.pat.image w) hi lo

def Dev.tenant (d : Dev) (gen : Nat) (t : Byte) : Option (List Word) := tenantRec (d.image gen) t

def recState (r : List Word) : Nat := fld (wd r 0) 39 32
def recBand (r : List Word) : Nat := fld (wd r 0) 31 24
def recRight (r : List Word) (b : Nat) : Bool := bitOf (wd r 0) (16 + b)
def recKeyType (r : List Word) : Nat := fld (wd r 0) 15 8
def recQueue (r : List Word) : Nat := fld (wd r 1) 47 40
def recCache (r : List Word) : Nat := fld (wd r 1) 39 28
def recSlots (r : List Word) : Nat := fld (wd r 1) 27 16
def recOpMem (r : List Word) : Nat := fld (wd r 1) 15 8
def recLongs (r : List Word) : Nat := fld (wd r 1) 7 0
def recLaneMs (r : List Word) : Nat := fld (wd r 2) 47 32
def recPkMs (r : List Word) : Nat := fld (wd r 2) 31 16
def recUrgent (r : List Word) : Nat := fld (wd r 2) 15 8
def recRecords (r : List Word) : Nat := fld (wd r 3) 47 32
def recWidth (r : List Word) : Nat := fld (wd r 3) 31 24
def recEpoch (r : List Word) : Nat := fld (wd r 3) 23 0

/-- Words per operand slot (tenant record W3 [31:24]). -/
def slotWidth (r : List Word) : Nat := [8, 16, 32, 64, 96].getD (recWidth r) 8

/-- The command's tenant holds a right in its bound generation (R560). -/
def hasRight (d : Dev) (r : Req) (b : Nat) : Bool := ((d.tenant r.gen r.tenant).map (fun x => recRight x b)).getD false

/-- A quota of the command's tenant in its bound generation. -/
def quotaOf (d : Dev) (r : Req) (f : List Word → Nat) : Nat := ((d.tenant r.gen r.tenant).map f).getD 0

def primaryPort (d : Dev) : Port := if d.cfg 8 47 40 == 0x0B then .b else .a

def Dev.port (d : Dev) : Port → PortRegs
  | .a => d.portA
  | .b => d.portB

def Dev.setPort (d : Dev) (p : Port) (x : PortRegs) : Dev :=
  match p with
  | .a => { d with portA := x }
  | .b => { d with portB := x }

def Dev.modPort (d : Dev) (p : Port) (f : PortRegs → PortRegs) : Dev := d.setPort p (f (d.port p))

def Flow.port (x : Flow) : Port → PortFlow
  | .a => x.a
  | .b => x.b

def Flow.setPort (x : Flow) (p : Port) (v : PortFlow) : Flow :=
  match p with
  | .a => { x with a := v }
  | .b => { x with b := v }

-- Per-tenant statistics

def statOf (d : Dev) (t : Byte) : TenantStat := (d.sched.stats.find? (fun s => s.tenant == t)).getD { tenant := t }

def modStat (t : Byte) (f : TenantStat → TenantStat) (d : Dev) : Dev :=
  let x := f (statOf d t)
  { d with sched := { d.sched with
    stats := if d.sched.stats.any (fun s => s.tenant == t) then modWhere (fun s => s.tenant == t) (fun _ => x) d.sched.stats
      else x :: d.sched.stats } }

-- The 4,096 general counters (R99, R100): a canonical list, unlisted counters reading holder 0xFF and value 0

def Counter.default (c : Counter) : Bool := c.holder == 0xFF && c.value == 0

def counterAt (cs : List Counter) (i : Nat) : Counter := (cs.find? (fun c => c.index == i)).getD { index := i }

/-- Puts a counter in its place of the rising list, or takes it out when it reads as an unlisted one. -/
def putCounter (x : Counter) : List Counter → List Counter
  | [] => if x.default then [] else [x]
  | c :: cs =>
    if x.index < c.index then (if x.default then c :: cs else x :: c :: cs)
    else if x.index = c.index then (if x.default then cs else x :: cs)
    else c :: putCounter x cs

/-- The canonical form: indexes rising, no entry that reads as an unlisted counter. -/
def countersWf : List Counter → Bool
  | [] => true
  | [c] => !c.default
  | c :: c' :: cs => !c.default && decide (c.index < c'.index) && countersWf (c' :: cs)

/-- Puts a word at its place of a rising list. -/
def putWord (k : Nat) (v : Word) : List (Nat × Word) → List (Nat × Word)
  | [] => [(k, v)]
  | x :: xs => if k < x.1 then (k, v) :: x :: xs else if k = x.1 then (k, v) :: xs else x :: putWord k v xs

/-- Keys rising. -/
def wordsWf : List (Nat × Word) → Bool
  | [] => true
  | [_] => true
  | x :: y :: xs => decide (x.1 < y.1) && wordsWf (y :: xs)

/-- Every indexed store of the model is in its canonical form. -/
abbrev Memory.wf (d : Dev) : Bool := countersWf d.time.counters && wordsWf d.dbg.memory

def Dev.putCounter (d : Dev) (x : Counter) : Dev :=
  { d with time := { d.time with counters := Machine.putCounter x d.time.counters } }

-- Engines in service (R340, R376, R418)

def clusterOf (lane : Nat) : Nat := lane / 2

def factoryFenced (d : Dev) (bit : Nat) : Bool := bitOf (d.shadow 0x29) bit

def clusterOut (d : Dev) (c : Nat) : Bool := ((d.sym.clusters.getD c {}).fenced) || factoryFenced d (9 + c)

/-- A lane is out of service by fuse, by fence or with its cluster (R340, R624). -/
def laneOut (d : Dev) (l : Nat) : Bool :=
  (d.sym.lanes.getD l {}).fenced || factoryFenced d l || (decide (l < 8) && clusterOut d (clusterOf l))

/-- Lanes that take work: L0-L7 in service, and LS while it stands in (R376). -/
def laneServes (d : Dev) (l : Nat) : Bool := !laneOut d l && (decide (l < 8) || d.sym.standIn.isSome)

/-- EXTEST, CLAMP or HIGHZ is the current instruction: the device logic sees CS_N and SCL high (R689). -/
def scanHoldsPorts (d : Dev) : Bool := d.dbg.ir == 0x00 || d.dbg.ir == 0x03 || d.dbg.ir == 0x04

/-- A confirmed L2 or L3 response has begun and is the next thing the device does (R17, R491 phase 1). -/
def responseDue (d : Dev) : Bool := d.tamper.response.isSome

/-- Phases 3 and 4 of a handover of the given component: its pause (R591, R592). -/
def pausedFor (d : Dev) (ctype : Nat) : Bool := d.fw.handover.any (fun h => h.ctype == ctype && (h.phase == 3 || h.phase == 4))

/-- The pause of an SCH or an SEC handover: nothing is dispatched and no refusal is delivered (R279, R592, R714). -/
def handoverPause (d : Dev) : Bool := pausedFor d 1 || pausedFor d 3

/-- SCH or SEC is halted or in its handover pause, or a response is due: nothing is dispatched, and commands reach DEADLINE (R279,
R491, R695) (DEDUCED, log 51). -/
def dispatchStopped (d : Dev) : Bool := d.dbg.halted.contains 3 || d.dbg.halted.contains 1 || handoverPause d || responseDue d

/-- The lane's cluster is withdrawn from dispatch while its control core is halted (R695). -/
def laneHalted (d : Dev) (l : Nat) : Bool := decide (l < 8) && d.dbg.halted.contains (8 + clusterOf l)

/-- A free lane in service, the lowest of several (DESIGN CHOICE, log 61). -/
def freeLane (d : Dev) : Option Nat :=
  (List.range 9).find? (fun l => laneServes d l && !laneHalted d l && (d.sym.lanes.getD l {}).job.isNone && !(d.sym.lanes.getD l {}).owesKat)

def clusterServes (d : Dev) : Bool := (List.range 4).any (fun c => !clusterOut d c)

def hashServes (d : Dev) : Bool := (List.range 4).any (fun c => !clusterOut d c && !(d.sym.clusters.getD c {}).hashFenced)

def engineServes (d : Dev) (e : Nat) : Bool := !(d.pk.engines.getD e {}).fenced

def anyEngine (d : Dev) : Bool := engineServes d 0 || engineServes d 1

-- The region table (R575, R576)

/-- The locked entries that the boot ROM writes: the reach table, subject by subject. -/
def regionTable : List RegionEntry :=
  let core (c : CoreId) (rs : List Region) : List RegionEntry := rs.map (fun x => { who := .subject (.core c), region := x, locked := true })
  core .sec [.secSram, .keyCache, .derivation, .nvm, .healthStore, .fuses, .operandMemory, .sharedSram, .linkBuffers, .regionTable]
    ++ core .pmc [.pmcRegion, .healthStore, .sensors, .mgmtBuffers, .logRing]
    ++ core .sch [.schRegion, .mailboxes, .queueState, .dispatch, .payload]
    ++ ([0, 1, 2, 3] : List (Fin 4)).flatMap (fun n => core (.cc n) [.clusterSram n, .laneControl n, .hashUnit n])

/-- The table grants a region to a subject. -/
def reaches (d : Dev) (who : Reacher) (x : Region) : Bool := d.fw.regions.any (fun e => e.who == who && e.region == x)

/-- A core writes the unlocked entries of the table: SEC alone can, and the locked ones stay (R575). -/
def writeRegions (by' : CoreId) (f : List RegionEntry → List RegionEntry) (d : Dev) : Dev :=
  if by' = .sec then
    { d with fw := { d.fw with
      regions := d.fw.regions.filter (·.locked) ++ (f (d.fw.regions.filter (fun e => !e.locked))).map (fun e => { e with locked := false }) } }
  else d

/-- An applet's sandbox gets its code and data, or loses them (R576, R653). -/
def mapApplet (a : AppletRef) (on : Bool) (d : Dev) : Dev :=
  writeRegions .sec (fun l =>
    l.filter (fun e => e.who != .subject (.applet a)) ++
      (if on then [{ who := .subject (.applet a), region := .appletCode }, { who := .subject (.applet a), region := .appletData }] else [])) d

-- ENGINE_OCCUPANCY (R285)

def busyLanes (d : Dev) : Nat := (d.sym.lanes.filter (fun l => l.job.isSome)).length

def busyEngines (d : Dev) : Nat := (d.pk.engines.filter (fun e => e.job.isSome)).length

/-- The newest 4-tick bucket keeps the most lanes and engines seen busy. -/
def noteBusy (d : Dev) : Dev :=
  let b := d.sched.buckets
  let l := b.getLastD (0, 0)
  { d with sched := { d.sched with buckets := b.dropLast ++ [(max l.1 (busyLanes d), max l.2 (busyEngines d))] } }

/-- A new bucket begins at each tick multiple of 4; 256 are kept. -/
def newBucket (d : Dev) : Dev :=
  let b := d.sched.buckets ++ [(busyLanes d, busyEngines d)]
  { d with sched := { d.sched with buckets := b.drop (b.length - 256) } }

/-- A tick advance passes over buckets in which nothing ran (R115, R285). -/
def skipBuckets (old new : Nat) (d : Dev) : Dev :=
  let b := d.sched.buckets ++ List.replicate (min 256 (new / 4 - old / 4)) (0, 0)
  { d with sched := { d.sched with buckets := b.drop (b.length - 256) } }

end Sys2Proof.Machine
end

