-- ==== Sys2Proof/Machine/Hierarchy.lean ====
section
/-! DEFINITION. The key hierarchy (07_keys): the base key's shares, heart keys, the persistent key store. -/
namespace Sys2Proof.Machine

/-- "KV4856-". -/
def kvDash : List Nat := [0x4B, 0x56, 0x34, 0x38, 0x35, 0x36, 0x2D]

def isPersistent (i : Nat) : Bool := decide (0xF00 ≤ i)

def handleOf (t : Byte) (i gen : Nat) : Word := mkWord [(47, 40, t.toNat), (39, 28, i), (27, 0, gen)]

-- The base key (R288-R290)

/-- The two shares of a cell set without their masks. -/
def KeyCells.shares (c : KeyCells) : List Byte × List Byte := (xorBytes c.share0 c.mask0, xorBytes c.share1 c.mask1)

def KeyCells.key (c : KeyCells) : List Byte := xorBytes c.shares.1 c.shares.2

def keyCells (d : Dev) : Option KeyCells := d.keys.cellsA.orElse (fun _ => d.keys.cellsB)

/-- What the derivation path recombines from the shares (R290). -/
def baseKey (d : Dev) : Option (List Byte) := (keyCells d).map KeyCells.key

/-- A store of the shares: new masks, the other set written, the old one erased (R288, R289). -/
def storeBase (s : List Byte × List Byte) (d : Dev) : Dev :=
  let (m0, d) := drawBytes 32 d
  let (m1, d) := drawBytes 32 d
  let c : KeyCells := { share0 := xorBytes s.1 m0, mask0 := m0, share1 := xorBytes s.2 m1, mask1 := m1 }
  let toB := d.keys.cellsA.isSome
  { d with keys := { d.keys with cellsA := if toB then none else some c, cellsB := if toB then some c else none, lastStore := d.now } }

/-- A new base key from the random source, split into two shares (R119). -/
def createBase (d : Dev) : Dev :=
  let (s0, d) := drawBytes 32 d
  let (s1, d) := drawBytes 32 d
  storeBase (s0, s1) d

/-- The key hierarchy can be reached: a base key exists and its scramble words are usable (R165). -/
def baseReachable (d : Dev) : Bool :=
  (baseKey d).isSome && !(d.fuse.unusable.any (fun i => decide (4 ≤ i) && decide (i ≤ 9)))

/-- A key lies in the key register of the derivation path. -/
def loadKeyReg (k : List Byte) (d : Dev) : Dev := { d with keys := { d.keys with keyReg := k } }

/-- The register clears at the end of each derivation (R290). -/
def clearKeyReg (d : Dev) : Dev := loadKeyReg (List.replicate 32 0) d

-- Heart keys (R291-R294)

/-- Heart label (R294). -/
def heartLabel (d : Dev) (t : Byte) (epoch : Nat) : List Word :=
  [mkWord [(47, 40, 1), (39, 32, t.toNat), (31, 8, epoch)]] ++ d.serial ++ [mkWord [(47, 40, 1)], 0, 0, 0, 0]

/-- The derivation of a heart key from the key register. -/
def deriveHeart (d : Dev) (t : Byte) (epoch : Nat) : List Byte :=
  kdf d.keys.keyReg (ascii (kvDash ++ [0x48, 0x45, 0x41, 0x52, 0x54])) (wordsBytes (heartLabel d t epoch)) 256

def heartAt (d : Dev) (t : Byte) (epoch : Nat) : Option Heart := d.keys.hearts.find? (fun h => h.tenant == t && h.epoch == epoch)

def Heart.key (h : Heart) : List Byte := xorBytes h.masked h.mask

/-- SEC holds a heart key: masked, the most recently used of at most 64 (R292). -/
def holdHeart (t : Byte) (epoch : Nat) (k : List Byte) (d : Dev) : Dev :=
  let (m, d) := drawBytes 32 d
  { d with keys := { d.keys with hearts := ({ tenant := t, epoch := epoch, masked := xorBytes k m, mask := m } :: d.keys.hearts).take 64 } }

/-- A use of a heart key: a held one becomes the most recent, any other is derived (R291, R292). -/
def touchHeart (t : Byte) (epoch : Nat) (d : Dev) : Dev :=
  match heartAt d t epoch with
  | some h => { d with keys := { d.keys with hearts := h :: d.keys.hearts.filter (· != h) } }
  | none =>
    let d := loadKeyReg ((baseKey d).getD []) d
    clearKeyReg (holdHeart t epoch (deriveHeart d t epoch) d)

/-- A heart key in use. -/
def heartKeyOf (d : Dev) (t : Byte) (epoch : Nat) : List Byte := ((heartAt d t epoch).map Heart.key).getD []

-- The persistent key store (R293, R308)

/-- The store key (R293). -/
def storeKeyOf (d : Dev) : List Byte :=
  kdf ((baseKey d).getD []) (ascii (kvDash ++ [0x53, 0x54, 0x4F, 0x52, 0x45])) (d.serialBytes ++ List.replicate 36 0) 256

/-- Tenant, slot index and generation as additional data: the handle's wire bytes (DESIGN CHOICE, log 78). -/
def storeAad (x : Slot) : List Byte := wordBytes (handleOf x.tenant x.index x.gen)

/-- One copy of a slot's material under the store key, with an IV from the random source (DESIGN CHOICE, log 78). -/
def storeCopy (x : Slot) (m : List Byte) (d : Dev) : StoreCopy × Dev :=
  let (iv, d) := drawBytes 12 d
  let e := gcmEnc (storeKeyOf d) iv (storeAad x) m
  ({ iv := iv, cipher := e.1, tag := e.2 }, d)

/-- A slot as the store takes it: both copies, copy 0 first, and no clear material. -/
def sealSlot (x : Slot) (d : Dev) : Slot × Dev :=
  let (a, d) := storeCopy x x.material d
  let (b, d) := storeCopy x x.material d
  ({ x with material := [], resident := false, copy0 := some a, copy1 := some b }, d)

def openCopy (d : Dev) (x : Slot) (c : StoreCopy) : Option (List Byte) := gcmDec (storeKeyOf d) c.iv (storeAad x) c.cipher c.tag

/-- The material that the store gives: copy 0, else copy 1 (R334). -/
def storedMaterial (d : Dev) (x : Slot) : Option (List Byte) :=
  if !baseReachable d then none
  else (x.copy0.bind (openCopy d x)).orElse (fun _ => x.copy1.bind (openCopy d x))

/-- The clear material of a slot: that of its cache entry, or what the store gives. -/
def slotMaterial (d : Dev) (x : Slot) : Option (List Byte) :=
  if !isPersistent x.index || x.resident then some x.material else storedMaterial d x

end Sys2Proof.Machine
end

