-- ==== Sys2Proof/Machine/Flags.lean ====
section
/-! DEFINITION. Attention and alert causes, internal faults, the log ring, tamper outputs and register reads. -/
namespace Sys2Proof.Machine

-- ATTN_CAUSE bits (R179)

def attnBit (b : Nat) (p : Port) (d : Dev) : Dev :=
  d.modPort p (fun x => { x with attn := x.attn ||| (1#12 <<< b) })

/-- Sets a cause on both ports. -/
def attnBoth (b : Nat) (d : Dev) : Dev := attnBit b .b (attnBit b .a d)

def Attn.linkError : Nat := 1
def Attn.pressure : Nat := 2
def Attn.ready : Nat := 3
def Attn.partialDiscard : Nat := 4
def Attn.overrun : Nat := 5
def Attn.failover : Nat := 6
def Attn.sessionClosed : Nat := 7
def Attn.pattern : Nat := 8
def Attn.tamper : Nat := 9
def Attn.longDone : Nat := 10
def Attn.tickAlarm : Nat := 11

-- ALERT_CAUSE bits (15_service_life)

def alertBit (b : Nat) (d : Dev) : Dev := { d with mgmt := { d.mgmt with alert := d.mgmt.alert ||| (1#12 <<< b) } }

def Alert.fault : Nat := 0
def Alert.tamper : Nat := 1
def Alert.pressure : Nat := 2
def Alert.fence : Nat := 3
def Alert.spareLow : Nat := 4
def Alert.throttle : Nat := 5
def Alert.thermal : Nat := 6
def Alert.pattern : Nat := 7
def Alert.keyStore : Nat := 8
def Alert.succession : Nat := 9
def Alert.progress : Nat := 10
def Alert.uncorrectable : Nat := 11

-- The log ring (R579-R582)

def traced (d : Dev) (point : Nat) : Bool := decide (point < 16) || bitOf (wd d.pat.image (16 + point / 48)) (point % 48)

/-- Appends a log entry when its point is traced; `coarse` rounds the tick to 4 (R582). -/
def logAt (core : Byte) (point : Nat) (a0 a1 : Word) (coarse : Bool) (d : Dev) : Dev :=
  if traced d point then
    let t := if coarse then word (d.now / 4 * 4) else d.time.tick
    let e : LogEntry := { tick := t, core := core, point := point, seq := d.fw.logSeq, arg0 := a0, arg1 := a1 }
    let l := d.fw.log ++ [e]
    { d with fw := { d.fw with log := l.drop (l.length - 2730), logSeq := d.fw.logSeq + 1 } }
  else d

def Core.sec : Byte := 0x01
def Core.pmc : Byte := 0x02
def Core.sch : Byte := 0x03

/-- A trace entry that concerns a tenant: its tick is coarse for any tenant but the owner (R582). -/
def traceT (core : Byte) (point : Nat) (t : Byte) (a0 a1 : Word) (d : Dev) : Dev := logAt core point a0 a1 (t != 0) d

/-- The status as the log ring shows it (R581). -/
def loggedStatus (t : Byte) (st : Byte) : Byte := if t != 0 && St.isSession st then St.policyRefused else st

/-- Trace points 18 to 20 of a completion (R580, R581); the spec gives no codes for the resource of point 20 (log 13). -/
def traceOutcome (r : Req) (st : Byte) (d : Dev) : Dev :=
  let d := if st == St.deadline then traceT Core.sch 19 r.tenant (word r.tenant.toNat) (word r.band) d else d
  let d := if st == St.quota && r.tenant == 0 then
      traceT Core.sch 20 r.tenant (word r.tenant.toNat) (word (Config.unstated 20 [r.opcode.toNat])) d else d
  traceT Core.sch 18 r.tenant (word (loggedStatus r.tenant st).toNat)
    (mkWord [(47, 40, r.tenant.toNat), (31, 16, r.opcode.toNat)]) d

/-- PMC writes a section of the health store, with trace point 163; the spec gives no codes for its record kinds (log 13). -/
def healthWrite (sec : Nat) (d : Dev) : Dev := logAt Core.pmc 163 (word (Config.unstated 163 [sec])) 0 false d

/-- "INTERNAL_FAULT on the management port": the alert, FAULT_CODE and the health store (R611, R651), trace point 2. -/
def raiseFault (kind : Nat) (d : Dev) : Dev :=
  let c := Config.faultCode kind
  healthWrite 5 <| logAt Core.sec 2 (word c.toNat) 0 false (alertBit Alert.fault
    { d with mgmt := { d.mgmt with
      faultCode := c, faultCount := d.mgmt.faultCount + 1
      faults := (d.mgmt.faults ++ [(d.now, c)]).drop (d.mgmt.faults.length + 1 - 64) } })

def setProgress (c : Byte) (d : Dev) : Dev :=
  alertBit Alert.progress { d with boot := { d.boot with progress := c } }

/-- Raises ADMIT on both ports and READY with it (R182). -/
def openPorts (d : Dev) : Dev :=
  attnBoth Attn.ready { d with portA := { d.portA with admitting := true }, portB := { d.portB with admitting := true } }

/-- The device accepts frames: firmware runs, or the ROM waits in WAIT_HOST or RECOVERY (R182). -/
def portsServed (d : Dev) : Bool := d.boot.running || d.boot.progress == 0x05 || d.boot.progress == 0x0C

def closePorts (d : Dev) : Dev :=
  { d with portA := { d.portA with admitting := false }, portB := { d.portB with admitting := false } }

-- Tamper outputs (R487-R490, R514)

def srcState (d : Dev) (s : Nat) : SourceState := d.tamper.sources.getD s {}

/-- TAMPER_HOLD: the timed hold runs, or a source of level 2 or more stays confirmed after its restart (R487); none in BLANK (R20). -/
def holdInForce (d : Dev) : Bool :=
  d.lifecycle != .blank && (decide (d.now < d.tamper.holdEnd) || d.tamper.sources.any (fun s => s.confirmed && decide (2 ≤ s.level)))

/-- TAMP_OUT (R490, R503); not driven high in BLANK (R20). -/
def tampOut (d : Dev) : Bool :=
  d.lifecycle != .blank && d.power.state != .backup &&
    (holdInForce d || d.tamper.sources.any (fun s => s.confirmed && decide (1 ≤ s.level)))

def highestLevel (d : Dev) : Nat := d.tamper.sources.foldl (fun m s => if s.confirmed then max m s.level else m) 0

/-- The tamper summary word (R514). -/
def tamperSummary (d : Dev) : Word :=
  mkWord [(47, 46, highestLevel d), (45, 45, flag (holdInForce d)), (44, 44, flag (tampOut d)),
    (43, 32, min d.tamper.recordsSince 4095),
    (28, 0, (d.tamper.sources.mapIdx (fun i s => if s.confirmed then 2 ^ i else 0)).foldl (· + ·) 0)]

-- Port registers (R179-R182)

def adminSession (x : PortRegs) : Option Session := x.sessions.find? (fun s => s.tenant == 0 && s.options.getLsbD 1)

/-- The head reply: the refusal slot's, else the oldest of the ring; a ring head that was there before the refusal stays (R178). -/
def headReply (f : PortFlow) : Option RingReply :=
  if f.ringHead then f.ring.head? else
    match f.refusal with
    | some x => some x
    | none => f.ring.head?

/-- FRAME_READ: n words of the head reply from a word offset; words past its end read as zero (R173). -/
def frameRead (f : PortFlow) (offset n : Nat) : List Word :=
  fitW n ((((headReply f).map (·.words)).getD []).drop offset)

/-- ATTN_CAUSE with its live REPLY bit. -/
def attnCause (s : State) (p : Port) : BitVec 12 :=
  (s.dev.port p).attn ||| (if (headReply (s.flow.port p)).isSome then 1#12 else 0#12)

/-- The VDDIO rail of a port's pad group is up (R36). -/
def portRail (d : Dev) : Port → Bool
  | .a => d.power.railA.isSome
  | .b => d.power.railB.isSome

/-- ATTN_N is driven low (R181); without its rail the pin is not driven (R36). -/
def attnLow (s : State) (p : Port) : Bool := portRail s.dev p && (attnCause s p &&& (s.dev.port p).mask) != 0

def portStatus (s : State) (p : Port) : Word :=
  let x := s.dev.port p
  let f := s.flow.port p
  mkWord [(47, 40, s.dev.boot.progress.toNat), (39, 39, flag s.dev.boot.fallback), (38, 38, flag (!s.dev.pat.image.isEmpty && primaryPort s.dev == p)),
    (37, 37, flag (adminSession (s.dev.port p.other)).isSome), (36, 36, flag (!x.rx.isEmpty && !x.rxDead)),
    (35, 35, flag (!f.ring.isEmpty)), (34, 34, flag f.refusal.isSome), (33, 33, flag (x.admitting && !s.dev.power.pfn)),
    (23, 16, x.discard.toNat), (15, 0, ((headReply f).map (fun r => r.words.length)).getD 0)]

def creditReg (s : State) (p : Port) : Word :=
  let f := s.flow.port p
  mkWord [(31, 24, p.credits), (23, 16, p.credits - f.mailbox - f.ring.length), (15, 8, f.mailbox), (7, 0, f.ring.length)]

def linkVersion (p : Port) : Word :=
  mkWord [(47, 40, 3), (39, 32, 2), (31, 24, 1), (23, 16, p.code), (15, 0, p.payloadMax)]

def frameWindow (s : State) (p : Port) : Word :=
  mkWord [(31, 16, p.ringSize - (s.dev.port p).rxUsed), (15, 0, p.ringSize)]

/-- The registers of a port by index (R179); PORT_CONTROL and the indexes above it read as zero (R173) (DEDUCED, log 45). -/
def portField (s : State) (p : Port) (i : Nat) : Word :=
  match i with
  | 0 => portStatus s p
  | 1 => word (attnCause s p).toNat
  | 2 => word (s.dev.port p).mask.toNat
  | 3 => creditReg s p
  | 4 => linkVersion p
  | 5 => frameWindow s p
  | _ => 0

/-- The ports answer: VDD is present and the device is not in HIBERNATE, BACKUP or shutdown (R230), the boot ROM serves the register
file (R179), the rail of the port's pads is up (R58) and no scan holds CS_N high (R689). -/
def portLive (d : Dev) (p : Port) : Bool :=
  (d.power.state = .active || d.power.state = .idle || d.power.state = .standby) && d.boot.progress != 0 &&
    !scanHoldsPorts d && portRail d p

/-- What REG_READ reads: a port that does not answer leaves what the bus floats to (R230; log 13). -/
def portReg (s : State) (p : Port) (i : Nat) : Word :=
  if portLive s.dev p then portField s p i else word (Config.unstated 46 [p.code, i])

-- Management registers (15_service_life)

def lanesInService (d : Dev) : Nat := ((List.range 9).filter (fun l => !laneOut d l)).length

def ownerMgmtKey (d : Dev) : Option Slot := d.keys.slots.find? (fun s => s.tenant == 0 && s.index == 0xFFF && !s.writing)

def mgmtStatus (d : Dev) : Word :=
  mkWord [(47, 40, d.boot.progress.toNat), (39, 32, d.lifecycle.code),
    (31, 30, match d.power.state with | .idle => 1 | .standby => 2 | _ => 0),
    (29, 29, flag d.power.throttle), (28, 28, flag (ownerMgmtKey d).isSome), (27, 26, d.succ.state),
    (25, 25, flag d.mgmt.busy.isSome), (24, 24, flag d.mgmt.reply.isSome),
    (23, 20, ((List.range 4).map (fun c => if clusterOut d c then 0 else 2 ^ c)).foldl (· + ·) 0),
    (19, 16, lanesInService d), (15, 14, flag (engineServes d 0) + 2 * flag (engineServes d 1)), (8, 0, d.nvm.spare)]

/-- A management register word; the active domain held in reset reads the reset value (R609). -/
def mgmtReg (d : Dev) (i : Nat) : Word :=
  match i with
  | 0 => if d.boot.progress == 0 then 0 else mgmtStatus d
  | 1 => word d.mgmt.alert.toNat
  | 2 => word d.mgmt.amask.toNat
  | 3 => mkWord [(23, 16, d.mgmt.faultCount.toNat), (15, 0, d.mgmt.faultCode.toNat)]
  | _ => 0

/-- M_ALERT_N is low while an unmasked cause stands (R610). A host clears a cause that it has read, so the pin also stays low until that
read (R64); no command of the table brings the read itself (DEDUCED, log 82). -/
def alertLow (d : Dev) : Bool := d.power.railM.isSome && (d.mgmt.alert &&& d.mgmt.amask) != 0

end Sys2Proof.Machine
end

