-- ==== Sys2Proof/Machine/Command.lean ====
section
/-! DEFINITION. How a command leaves the device (R202, R203, R707-R712) and the checks every command passes in the order of R708. -/
namespace Sys2Proof.Machine

/-- Frees the request-ring words of a completed frame (R203). -/
def freeRing (r : Req) (d : Dev) : Dev :=
  match r.origin with
  | .port p => d.modPort p (fun x => { x with rxUsed := x.rxUsed - r.ringWords })
  | _ => d

/-- QUOTA refusals and DEADLINE outcomes of TENANT_STATS, modulo 2^24 (R285). -/
def countOutcome (r : Req) (st : Byte) (d : Dev) : Dev :=
  if st == St.quota then modStat r.tenant (fun x => { x with quotaRefusals := (x.quotaRefusals + 1) % 2 ^ 24 }) d
  else if st == St.deadline then modStat r.tenant (fun x => { x with deadlines := (x.deadlines + 1) % 2 ^ 24 }) d
  else d

/-- Takes a command's staged entry out of the cache; it is zeroised (R276) or has become pinned material. -/
def dropStaged (id : Nat) (pinned : Bool) (d : Dev) : Dev :=
  let n := ((d.keys.staged.filter (fun x => x.id == id)).map (·.entries)).foldl (· + ·) 0
  { d with keys := { d.keys with
    staged := d.keys.staged.filter (fun x => x.id != id)
    zeroising := if pinned then d.keys.zeroising else d.keys.zeroising + n } }

/-- The status as a reply carries it in the clear (R707, R711). -/
def wireStatus (r : Req) (st : Byte) : Byte :=
  if St.isSession st && (!r.inSession || r.enc) then St.policyRefused else st

-- Queue slots (R245, R278, R283)

/-- An admitted command takes a queue slot: an entry, and one more in its tenant's held count. -/
def takeSlot (r : Req) (d : Dev) : Dev :=
  modStat r.tenant (fun x => { x with held := x.held + 1 })
    { d with sched := { d.sched with slots := d.sched.slots ++ [(r.id, r.tenant)] } }

/-- The slot of a command comes free: its reply has entered a ring, or the handle of its long operation has gone. -/
def freeSlot (id : Nat) (d : Dev) : Dev :=
  match d.sched.slots.find? (fun x => x.1 == id) with
  | some e =>
    modStat e.2 (fun x => { x with held := x.held - 1 })
      { d with sched := { d.sched with slots := d.sched.slots.erase e } }
  | none => d

/-- The queue slots held by the entries of tenants of a kind. -/
def heldBy (d : Dev) (c : Byte → Bool) : Nat := (d.sched.slots.filter (fun x => c x.2)).length

-- Management replies (R613, R614)

/-- The management key while owner slot 0xFFF holds one (R615). -/
def mgmtKey (d : Dev) : Option (List Byte) := (ownerMgmtKey d).bind (slotMaterial d)

def replyH0 (version : Nat) (r : Req) : Word :=
  mkWord [(47, 40, version), (39, 32, r.tenant.toNat), (31, 16, r.opcode.toNat), (15, 0, r.tag.toNat)]

def replyH1 (bytes : Nat) (st : Byte) (session : Byte) : Word :=
  mkWord [(47, 24, bytes), (23, 16, st.toNat), (15, 8, 1), (7, 0, session.toNat)]

def replyH2 (gen tick : Nat) : Word := mkWord [(47, 24, gen), (23, 0, tick)]

/-- Words of a 12-byte MAC or tag. -/
def macWords (t : List Byte) : List Word := bytesWords (t.take 12)

def trailer (ctr : Nat) (body : List Word) : Word := mkWord [(47, 32, ctr), (31, 0, (crc32c (wordsBytes body)).toNat)]

/-- The reply packet of a management command (R613, R614). -/
def mgmtPacket (d : Dev) (x : Reply) : List Word :=
  let r := x.req
  let head := [replyH0 3 r, replyH1 x.bytes (wireStatus r x.status) 0, replyH2 r.gen x.tick]
  let body := head ++ x.words
  let mac := if r.mac && x.status != St.sessionMac && x.status != St.replay then
      match mgmtKey d with
      | some k => macWords (cmac k (wordsBytes (r.w 0 :: body)))
      | none => []
    else []
  let all := body ++ mac
  all ++ [trailer r.counter.toNat all]

/-- The activation of an applet waits for the reply of a command (R660); the reply of an ended activation has no taker. -/
def awaited (a : AppletRef) (id : Nat) (d : Dev) : Bool :=
  d.app.applets.any (fun x => x.ref == a && ((x.act.bind (·.call)).map (fun c => c.id == id)).getD false)

/-- A policy refusal waits its 40 us (R709), CHALLENGE_RESPOND its fixed time (R529); any other reply is ready, a running job's
KEY_REVOKED too (R715). -/
def routeTimed (x : Reply) (d : Dev) : Dev :=
  if x.req.opcode = 0x0B03 then { d with held := d.held ++ [{ kind := .challenge, reply := x }] }
  else if St.isPolicy x.status && x.status != St.keyRevoked then { d with held := d.held ++ [{ kind := .refusal, reply := x }] }
  else { d with done := d.done ++ [x] }

/-- A completed command takes its way to its sender: a management reply into PKT_WINDOW, any other by its timing. -/
def route (x : Reply) (d : Dev) : Dev :=
  match x.req.origin with
  | .mgmt =>
    logAt Core.pmc 162 (word x.req.opcode.toNat) (word x.status.toNat) false
      { d with mgmt := { d.mgmt with busy := none, reply := some (mgmtPacket d x), readAt := 0 } }
  | .applet a => if awaited a x.req.id d then routeTimed x d else freeSlot x.req.id d
  | .port _ => routeTimed x d

/-- Completes a command: its request-ring words go, an entry staged for it and not used by it is zeroised (R276), its outcome is
counted, its reply takes its way. -/
def complete (r : Req) (st : Byte) (ws : List Word) (bytes : Nat) (d : Dev) : Dev :=
  route { req := r, status := st, words := ws, bytes := bytes, tick := d.now }
    (traceOutcome r st (countOutcome r st (freeRing r (dropStaged r.id false d))))

/-- Completes a command that has taken its effect: its staged entry has become its pinned material (R276). -/
def conclude (r : Req) (st : Byte) (ws : List Word) (bytes : Nat) (d : Dev) : Dev := complete r st ws bytes (dropStaged r.id true d)

/-- While PF_N is recognised an outcome waits for admission to resume (R50). -/
def heldOutcome (old d : Dev) : Dev :=
  if old.power.pfn then
    { d with done := old.done, power := { d.power with pfnReplies := d.power.pfnReplies ++ d.done.drop old.done.length } }
  else d

/-- Completes a command with a status alone, or with W0 of R710 for a policy refusal. -/
def refuseWith (r : Req) (st : Byte) (reason : Nat) (d : Dev) : Dev :=
  if St.isPolicy st then
    complete r st [if r.inSession then mkWord [(15, 8, st.toNat), (7, 0, reason)] else 0] 6 d
  else complete r st [] 0 d

/-- A heart key that a refusal names stays used (R292). -/
def keepHeart (e : Rej) (d : Dev) : Dev :=
  match e.heart with
  | some x => touchHeart x.1 x.2 d
  | none => d

def refuse (r : Req) (e : Rej) (d : Dev) : Dev :=
  let d := keepHeart e d
  if St.isPolicy e.status || e.words.isEmpty then refuseWith r e.status e.reason d
  else complete r e.status e.words (6 * e.words.length) d

-- Dimensions (R16-R18)

def isCrypto (r : Req) : Bool :=
  r.cls == 3 || r.cls == 4 || r.cls == 5 || r.cls == 6 || r.cls == 0x0F

/-- Commands a tamper hold refuses (R488). -/
def heldByTamper (r : Req) : Bool := isCrypto r || r.cls == 0x11 || r.opcode == 0x0110

/-- Live update and staging: class 0x0D but LOG_READ and FW_STATUS. -/
def isUpdate (r : Req) : Bool := decide (0x0D01 ≤ r.opcode.toNat) && decide (r.opcode.toNat ≤ 0x0D05)

/-- Commands of R636 that write tenant state (log 17). -/
def writesTenantState (r : Req) : Bool :=
  [0x0201, 0x0202, 0x02F1, 0x02F2, 0x0301, 0x0302, 0x0303, 0x0304, 0x0307, 0x0310, 0x0311, 0x0901, 0x0902, 0x0904, 0x0C02, 0x0C03,
    0x0C04, 0x0C05].contains r.opcode.toNat

/-- The row of the mode-combination matrix that refuses the command, by lifecycle and then succession, and its status (R16-R18).
DEPARTED refuses the counters too, for their values are tenant state that only the new device may use (R25, R635) (DEDUCED, log 62).
The lifecycle table names no status for other tenants' commands in MANUFACTURE (DESIGN CHOICE, log 63). -/
def rowRefusal (r : Req) (d : Dev) : Option Byte :=
  let lc := d.lifecycle
  if lc = .scorched && (isCrypto r || r.cls == 0x0B || isUpdate r) then some St.scorched
  else if lc = .departed && (isCrypto r || r.cls == 0x09) then some St.departed
  else if (lc = .returned || lc = .blank) && (isCrypto r || r.cls == 0x0B) then some St.policyRefused
  else if lc = .manufacture && isCrypto r && r.tenant != 0 then some St.policyRefused
  else if d.succ.state == 1 && (writesTenantState r || r.opcode == 0x0F01 || r.opcode == 0x0F03) then some St.busyRetry
  else if d.succ.state == 2 && (r.opcode == 0x0201 || r.opcode == 0x0901 || r.opcode == 0x0310) then some St.busyRetry
  else none

/-- No cluster serves, and the command is of a class that only clusters serve (R31). -/
def clustersGone (r : Req) (d : Dev) : Bool := (r.cls == 4 || r.cls == 5 || r.cls == 0x0F) && !clusterServes d

/-- What refuses a command at dispatch, in the order of R17: the matrix row of its admission (R28), a tamper hold as it stands at
dispatch (R488; an L1 hold ranks as an L2 hold, which R17 does not say, DESIGN CHOICE, log 64), power loss, a lost key hierarchy, no
cluster left (R31). -/
def dims (r : Req) (d : Dev) : Res Unit := do
  need (r.barred != some St.scorched) St.scorched
  need (!(holdInForce d && heldByTamper r)) St.tamperHold
  need (!d.power.pfn) St.busyRetry
  match r.barred with
  | some st => rej st
  | none => pure ()
  need (!(isCrypto r && r.cls != 0x0F && !baseReachable d && d.lifecycle != .blank)) St.internalFault
  need (!clustersGone r d) St.internalFault

/-- The status of a command that arrives while PF_N is recognised: BUSY_RETRY (R46), but for what ranks above power loss (R17). -/
def powerLossStatus (r : Req) (d : Dev) : Byte :=
  if rowRefusal r d = some St.scorched then St.scorched
  else if holdInForce d && heldByTamper r then St.tamperHold
  else St.busyRetry

-- Issuers (R708 step 1)

def needTenant (r : Req) : Res Unit := need (r.tenant != 0xFF) St.policyRefused

/-- Owner, and in the classes of R224 inside an admin session (R225). -/
def needOwner (r : Req) : Res Unit := need (r.tenant == 0 && r.inSession) St.policyRefused

def needAdmin (r : Req) : Res Unit := need (r.tenant == 0 && r.admin) St.policyRefused

def needRight (d : Dev) (r : Req) (b : Nat) : Res Unit := need (hasRight d r b) St.policyRefused

-- Administration (R224, R228)

def adminClass (r : Req) : Bool := r.cls == 2 || r.cls == 0x0A || r.cls == 0x0C || r.cls == 0x0D || r.cls == 0x11

/-- An owner command of the classes of R224. -/
def isAdminCmd (r : Req) : Bool := r.tenant == 0 && adminClass r

/-- The other port's owner has an earlier admin command waiting: contending admin commands go in admission order (R228). -/
def adminBehind (r : Req) (d : Dev) : Bool :=
  isAdminCmd r && d.cmds.any (fun x => isAdminCmd x && decide (x.id < r.id) && x.origin != r.origin && decide (d.now ≤ x.deadline))

/-- The command waits: a tamper response comes first (R17, R255), dispatch is stopped (R279, R695) or an admin command goes ahead; its
deadline has not passed. -/
def mustWait (r : Req) (d : Dev) : Bool :=
  (responseDue d || (dispatchStopped d && r.origin != .mgmt) || adminBehind r d) && decide (d.now ≤ r.deadline)

/-- Puts a command back among those that wait, in admission order. -/
def requeue (r : Req) (d : Dev) : Dev :=
  { d with cmds := d.cmds.filter (fun x => x.id < r.id) ++ r :: d.cmds.filter (fun x => decide (r.id < x.id)) }

/-- What becomes of a command whose checks and effect gave a result; a refusal leaves the device as it was. -/
def settle (r : Req) (d : Dev) (x : Res (Dev × Done)) : Dev :=
  match x with
  | .error e => refuse r e d
  | .ok (d, .reply st ws n) => conclude r st ws n d
  | .ok (d, .final g ws n) => conclude { r with gen := g } St.ok ws n d
  | .ok (d, .later) => dropStaged r.id true d
  | .ok (d, .wait) => requeue r d

/-- What a step of a host command makes of a device that holds it: its checks in the order of R708, then its effect. -/
def serve (r : Req) (issuer : Dev → Res Unit) (body : Dev → Res (Dev × Done)) (d0 : Dev) : Dev :=
  let d := { d0 with cmds := d0.cmds.erase r }
  if mustWait r d0 then d0
  else if r.deadline < d.now then refuseWith r St.deadline 0 d
  else settle r d (do issuer d; dims r d; body d)

/-- A meaning that touches the device only. -/
def lift (f : Dev → Dev) (s : State) : Out := .next { s with dev := f s.dev }

/-- A host command acts when the device holds it (log 2) (DEDUCED, log 52). -/
def hostCmd (op : Nat) (r : Req) (issuer : Dev → Res Unit) (body : Dev → Res (Dev × Done)) (s : State) : Out :=
  lift (fun d => if r ∈ d.cmds ∧ r.opcode.toNat = op then serve r issuer body d else d) s

/-- A meaning that may restart the device: on a restart the mailboxes, rings and refusal slots empty (R222). -/
def liftR (f : Dev → Dev × Bool) (s : State) : Out :=
  let p := f s.dev
  .next { s with dev := p.1, flow := if p.2 then {} else s.flow }

end Sys2Proof.Machine
end

