-- ==== Sys2Proof/Machine/Long.lean ====
section
/-! DEFINITION. Long operations (R262-R273) and applet activations (R665-R670) as the other chapters start and end them. -/
namespace Sys2Proof.Machine

def LongState.code : LongState → Nat
  | .queued => 1
  | .running => 2
  | .suspendPending => 3
  | .suspended => 4
  | .cancelPending => 5
  | .done => 6
  | .failed => 7
  | .cancelled => 8

def LongState.final : LongState → Bool
  | .done => true
  | .failed => true
  | .cancelled => true
  | _ => false

def longAt (d : Dev) (h : BitVec 24) : Option LongOp := d.sched.longs.find? (fun l => l.handle == h)

def modLong (h : BitVec 24) (f : LongOp → LongOp) (d : Dev) : Dev :=
  { d with sched := { d.sched with longs := modWhere (fun l => l.handle == h) f d.sched.longs } }

/-- The handle goes, and with it the queue slot that the operation kept (R270, R278). -/
def dropLong (h : BitVec 24) (d : Dev) : Dev :=
  let d := match longAt d h with
    | some l => if l.internal then d else freeSlot l.cmd d
    | none => d
  { d with sched := { d.sched with longs := d.sched.longs.filter (fun l => l.handle != h) } }

/-- The first handle from the counter on that is neither 0 nor live (R262); at most 64 are live. -/
def freeHandle (d : Dev) : BitVec 24 :=
  (((List.range 66).map (fun i => d.sched.nextHandle + BitVec.ofNat 24 i)).find?
    (fun h => h != 0 && (longAt d h).isNone)).getD 1

def addLong (op : LongOp) (d : Dev) : BitVec 24 × Dev :=
  let h := freeHandle d
  (h, { d with sched := { d.sched with longs := d.sched.longs ++ [{ op with handle := h }], nextHandle := h + 1 } })

/-- The ACCEPTED reply's W0. -/
def acceptedWord (kind : Nat) (h : BitVec 24) : Word := mkWord [(47, 40, kind), (23, 0, h.toNat)]

def modApplet (a : AppletRef) (f : Applet → Applet) (d : Dev) : Dev :=
  { d with app := { d.app with applets := modWhere (fun x => x.ref == a) f d.app.applets } }

def appletAt (d : Dev) (a : AppletRef) : Option Applet := d.app.applets.find? (fun x => x.ref == a)

/-- The reply that an ended activation waited for has no taker. -/
def forgetCall (a : AppletRef) (d : Dev) : Dev :=
  match ((appletAt d a).bind (·.act)).bind (·.call) with
  | none => d
  | some c => { freeSlot c.id d with
      done := d.done.filter (fun x => !(x.req.origin == .applet a && x.req.id == c.id))
      held := d.held.filter (fun x => !(x.reply.req.origin == .applet a && x.reply.req.id == c.id)) }

/-- What an ended operation leaves behind: cancelled or failed work is zeroised or discarded (long-operation kinds table); the loss of
the fallback image by an interrupted FALLBACK staging is owed to the journal (R586). -/
def clearLongData (op : LongOp) (d : Dev) : Dev :=
  match op.data with
  | .stage =>
    match d.fw.stage with
    | some x =>
      if x.handle = op.handle && !x.complete then { d with fw := { d.fw with
        stage := none, owed := if x.target = 3 then d.fw.owed ++ [(1, 7, (Config.faultCode 16).toNat)] else d.fw.owed } }
      else d
    | none => d
  | .applet a _ _ =>
    if ((appletAt d a).bind (·.act)).any (fun t => t.handle == op.handle) then
      modApplet a (fun x => { x with act := none }) (forgetCall a d)
    else d
  | _ => d

/-- An operation reaches a final state: LONG_DONE on its port (R272); an internally triggered one frees its handle (R670). -/
def finishLong (h : BitVec 24) (st : LongState) (status : Byte) (d : Dev) : Dev :=
  match longAt d h with
  | none => d
  | some op =>
    let d := if st = .done then d else clearLongData op d
    let d := modLong h (fun l => { l with data := match l.data with
      | .applet a _ _ => .applet a [] 0
      | x => if st = .done then x else .stage }) d
    if op.internal then dropLong h d
    else
      let d := traceT Core.sch 22 op.tenant (word h.toNat) (word st.code)
        (modLong h (fun l => { l with state := st, status := status, endTick := d.now }) d)
      match op.origin with
      | .port p => attnBit Attn.longDone p d
      | _ => d

/-- Ends every live operation of a tenant that satisfies a condition. -/
def finishWhere (c : LongOp → Bool) (st : LongState) (status : Byte) (d : Dev) : Dev :=
  ((d.sched.longs.filter (fun l => c l && !l.state.final)).map (·.handle)).foldl (fun d h => finishLong h st status d) d

/-- A suspension point of an operation (R268, R269): what is pending takes effect, else it rebinds to the current generation. -/
def suspensionPoint (h : BitVec 24) (d : Dev) : Dev :=
  match longAt d h with
  | none => d
  | some l =>
    match l.state with
    | .suspendPending => modLong h (fun l => { l with state := .suspended, suspTick := d.now }) d
    | .cancelPending => finishLong h .cancelled St.cancelled d
    | .running => modLong h (fun l => { l with gen := d.pat.gen }) d
    | _ => d

/-- A command bound to a generation is still in the device (R562). -/
def boundTo (d : Dev) (g : Nat) : Bool :=
  d.cmds.any (fun r => r.gen == g) || d.held.any (fun h => h.reply.req.gen == g) || d.done.any (fun x => x.req.gen == g)
    || d.sym.lanes.any (fun l => (l.job.map (fun j => j.req.gen == g)).getD false) || d.sym.waiting.any (fun j => j.req.gen == g)
    || d.pk.engines.any (fun e => (e.job.map (fun j => j.req.gen == g)).getD false) || d.pk.waiting.any (fun j => j.req.gen == g)
    || d.nvm.writes.any (fun w => (w.req.map (fun r => r.gen == g)).getD false)
    || d.sched.longs.any (fun l => (l.state = .running || l.state = .suspendPending || l.state = .cancelPending) && l.gen == g)

/-- MIXED_CLOSED: the old generation leaves when nothing is bound to it (R562). -/
def closeMixed (d : Dev) : Dev :=
  match d.pat.old with
  | some (g, _) => if boundTo d g then d else logAt Core.sch 24 (word g) 0 false { d with pat := { d.pat with old := none } }
  | none => d

-- Applet admission entries (R674)

def admissionEntries (img : List Word) : List (List Word) :=
  chunksOf 10 (min 32 (fld (wd img 15) 31 24)) (img.drop 160)

/-- The enabled entry of an applet in a pattern image. -/
def admissionEntry (img : List Word) (a : AppletRef) : Option (List Word) :=
  (admissionEntries img).find? (fun e => fld (wd e 0) 47 40 == a.tenant.toNat && fld (wd e 0) 39 24 == a.id.toNat && bitOf (wd e 0) 0)

/-- Fuel budget of an entry, in fuel units (R671, R674). -/
def entryFuel (e : List Word) : Nat := fld (wd e 9) 47 32 * 1024

def entryPermits (e : List Word) (code : Nat) : Bool := bitOf (wd e 9) (24 + code - 1)

def entryRecordType (e : List Word) : Nat := fld (wd e 9) 23 16

/-- The applet may run: an enabled entry admits its version in the current generation (R676). -/
def admitted (d : Dev) (x : Applet) : Option (List Word) :=
  (admissionEntry d.pat.image x.ref).bind (fun e => if fld (wd e 0) 23 8 ≤ x.version then some e else none)

/-- An activation that waits for APPLET_ACTIVATION_START, for a live long operation. -/
def newActivation (h : BitVec 24) (code : Nat) (init : List Word) (budget : Nat) : Activation :=
  { handle := h, trigger := code, init := init, budget := budget }

def missTrigger (a : AppletRef) (d : Dev) : Dev := modApplet a (fun x => { x with missed := x.missed + 1 }) d

/-- Internal triggers are evaluated in ACTIVE, IDLE and STANDBY; in STANDBY a firing wakes the device (R669). -/
def triggersRun (d : Dev) : Bool := d.boot.running && (d.power.state = .active || d.power.state = .idle || d.power.state = .standby)

/-- An internal trigger fires for an applet with its registers W1 on (R665-R667, R676). -/
def fireTrigger (code : Nat) (regs : List Word) (a : AppletRef) (d : Dev) : Dev :=
  match appletAt d a with
  | none => d
  | some x =>
    if !(x.loaded && x.enabled.contains code && triggersRun d) then d
    else
      match admitted d x with
      | none => d
      | some e =>
        if !entryPermits e code then d
        else
          let d := if d.power.state = .standby then { d with power := { d.power with state := .active } } else d
          if holdInForce d || d.succ.state == 1 then missTrigger a d
          else if x.act.isSome then
            if x.waiting.any (fun w => w.1 == code) then missTrigger a d
            else modApplet a (fun x => { x with waiting := x.waiting ++ [(code, regs)] }) d
          else
            let quota := ((d.tenant d.pat.gen a.tenant).map recLongs).getD 0
            if decide (quota ≤ (d.sched.longs.filter (fun l => l.tenant == a.tenant)).length) || decide (64 ≤ d.sched.longs.length)
            then missTrigger a d
            else
              let op : LongOp := { kind := 6, tenant := a.tenant, state := .queued, gen := d.pat.gen, origin := .applet a,
                                   internal := true, deadline := 2 ^ 48, data := .applet a [] 0 }
              let (h, d) := addLong op d
              modApplet a (fun x => { x with act := some (newActivation h code regs (entryFuel e)) }) d

/-- The oldest queued host call of an applet that no activation holds. -/
def queuedCall (d : Dev) (a : AppletRef) : Option LongOp :=
  d.sched.longs.find? (fun l => l.state = .queued && (match l.data with
    | .applet b _ _ => a == b
    | _ => false))

/-- When an applet becomes free, a pending internal trigger is taken first, then the oldest queued host call (log 19). -/
def nextActivation (a : AppletRef) (d : Dev) : Dev :=
  match appletAt d a with
  | none => d
  | some x =>
    if x.act.isSome then d
    else
      match x.waiting with
      | w :: rest => fireTrigger w.1 w.2 a (modApplet a (fun x => { x with waiting := rest }) d)
      | [] =>
        match queuedCall d a, admitted d x with
        | some l, some e =>
          let n := match l.data with
            | .applet _ _ n => n
            | _ => 0
          modApplet a (fun x => { x with act := some (newActivation l.handle 1 [word n] (entryFuel e)) }) d
        | _, _ => d

/-- A committed record fires the journal triggers of its type, but not those of the applet that appended it (R665, R668). -/
def journalTriggers (from_ : Option AppletRef) (rtype : Nat) (main : Bool) (seq tick dist : Word) (d : Dev) : Dev :=
  let regs := [seq, mkWord [(47, 40, rtype), (39, 32, if main then 1 else 2)], tick, dist]
  ((d.app.applets.filter (fun x => from_ != some x.ref &&
      (((admissionEntry d.pat.image x.ref).map entryRecordType).getD 0 == rtype))).map (·.ref)).foldl
    (fun d a => fireTrigger 3 regs a d) d

end Sys2Proof.Machine
end

