-- ==== Sys2Proof/Machine/Programs.lean ====
section
/-! DEFINITION. The public-key programs (R401): what they compute, operands held, fixed durations, engines (R253, R394-R400). -/
namespace Sys2Proof.Machine

-- What the programs compute (R402; the standards are those of logs 10 and 15)

/-- Public key of a private key of a type; 0x22 is the device's ML-DSA-65 seed. -/
def publicKey (kt : Nat) (k : List Byte) : List Byte :=
  match kt with
  | 0x10 => p256.publicOf k
  | 0x11 => p384.publicOf k
  | 0x12 => edPublic k
  | 0x13 => x25519 k (9 :: List.replicate 31 0)
  | 0x21 => kemPublic k
  | 0x22 => (dsaKey k).public
  | _ => []

/-- A signature of a scheme holds (R406): public key, digest or message, signature, context, salt length. -/
def sigHolds (scheme : Nat) (pub msg sig ctx : List Byte) (salt : Nat) : Bool :=
  match scheme with
  | 1 => p256.verify pub msg sig
  | 2 => p384.verify pub msg sig
  | 3 => edVerify pub msg sig
  | 9 => dsaVerify pub msg sig ctx
  | _ => rsaVerify scheme pub msg sig salt

/-- The shared secret of an agreement algorithm, none where a content check of R404 refuses the result. -/
def agree (alg : Nat) (k peer : List Byte) : Option (List Byte) :=
  match alg with
  | 1 => if p256.pointOk peer then p256.agree k peer else none
  | 2 => if p384.pointOk peer then p384.agree k peer else none
  | 3 => if (x25519 k peer).all (· == 0) then none else some (x25519 k peer)
  | 4 => some (kemDecaps k peer)
  | _ => none

/-- An ECDSA signature with a random secret of 64 bits more than the order (FIPS 186-5); one that gives no signature is drawn again. -/
def ecdsaSign (c : Curve) (key h : List Byte) : Nat → Dev → List Byte × Dev
  | 0, d => ([], d)
  | n + 1, d =>
    let p := drawBytes (c.size + 8) d
    match c.signWith key h (beNat p.1 % (c.n - 1) + 1) with
    | some s => (s, p.2)
    | none => ecdsaSign c key h n p.2

/-- An ML-DSA-65 signature: the sign program runs again with fresh randomness while all its attempts reject. -/
def dsaSignature (seed msg : List Byte) : Nat → Dev → List Byte × Dev
  | 0, d => ([], d)
  | n + 1, d =>
    let p := drawBytes 32 d
    match dsaSign seed msg p.1 with
    | some s => (s, p.2)
    | none => dsaSignature seed msg n p.2

/-- The signature that a scheme makes with a private key, from the random source (R402). -/
def makeSignature (scheme : Nat) (k msg : List Byte) (salt : Nat) (d : Dev) : List Byte × Dev :=
  match scheme with
  | 1 => ecdsaSign p256 k msg 16 d
  | 2 => ecdsaSign p384 k msg 16 d
  | 3 => (edSign k msg, d)
  | 9 => dsaSignature k msg 64 d
  | _ =>
    let p := drawBytes salt d
    (rsaSign scheme k msg p.1, p.2)

-- The programs

/-- Program ids of the programs table, in its order. -/
def programIds : List Nat :=
  [0x01, 0x02, 0x03, 0x04, 0x05, 0x06, 0x07, 0x08, 0x09, 0x0A, 0x0B, 0x0C, 0x10, 0x11, 0x12, 0x13, 0x14, 0x20, 0x21, 0x22, 0x28,
    0x29, 0x2A]

/-- Word counts of the operands a program holds. -/
def progOperands (p : Nat) : List Nat :=
  match p with
  | 0x01 => [6, 6, 6]
  | 0x03 => [8, 8, 8]
  | 0x05 => [6, 11]
  | 0x07 => [6, 6]
  | 0x08 => [8, 8]
  | 0x09 => [6, 6]
  | 0x0A => [6, 6, 6]
  | 0x0B => [8, 8, 8]
  | 0x0C => [6, 6]
  | 0x11 => [43, 43, 43, 43, 43, 86]
  | 0x12 => [43]
  | 0x13 => [43]
  | 0x14 => [43, 43, 43, 43, 43, 86]
  | 0x28 => [11, 6]
  | 0x29 => [6]
  | 0x2A => [11]
  | _ => []

/-- Fixed duration in us at the nominal clock. -/
def progUs (p : Nat) : Nat :=
  match p with
  | 0x01 => 900
  | 0x02 => 1800
  | 0x03 => 2000
  | 0x04 => 4100
  | 0x05 => 700
  | 0x06 => 1600
  | 0x07 => 900
  | 0x08 => 2000
  | 0x09 => 600
  | 0x0A => 900
  | 0x0B => 2000
  | 0x0C => 700
  | 0x10 => 1200
  | 0x11 => 180000
  | 0x12 => 20000
  | 0x13 => 250000
  | 0x14 => 60000
  | 0x20 => 1100
  | 0x21 => 6000
  | 0x22 => 2500
  | 0x28 => 400
  | 0x29 => 300
  | 0x2A => 300
  | _ => 0

/-- Slots of a width that a program holds (R395). -/
def progSlots (p width : Nat) : Nat := ((progOperands p).map (fun w => ceilDiv w width)).foldl (· + ·) 0

/-- A program that runs longer than 20 ms (R253). -/
def isLongProg (p : Nat) : Bool := decide (20000 < progUs p)

/-- Verify programs and RSA verify need no randomness (R420). -/
def isVerifyProg (p : Nat) : Bool := p == 0x02 || p == 0x04 || p == 0x06 || p == 0x10 || p == 0x20

/-- Programs whose output is checked before use (R416, R410 step 6). -/
def hasOutputCheck (p : Nat) : Bool := decide (p ≤ 0x0C) && !isVerifyProg p || p == 0x11 || p == 0x14

/-- A program's whole duration is charged to its tenant when it starts (R243, R409); a command without a tenant has none to charge. -/
def chargePk (t : Byte) (p : Nat) (d : Dev) : Dev :=
  if t = 0xFF then d else modStat t (fun x => { x with pkUs := x.pkUs + progUs p }) d

/-- The key generation program of a key type (R401). -/
def genProg (kt : Nat) : Nat := if kt == 0x10 then 0x0A else if kt == 0x11 then 0x0B else if kt == 0x12 || kt == 0x13 then 0x0C else 0

-- Operand partitions (R394-R400)

/-- KiB and slot width of the command's partition in its bound generation. -/
def partOf (d : Dev) (r : Req) : Nat × Nat := (quotaOf d r recOpMem, ((d.tenant r.gen r.tenant).map slotWidth).getD 8)

def partSlots (p : Nat × Nat) : Nat := p.1 * 1024 / (6 * p.2)

/-- Slots of a program in the command's partition; the operands of a SESSION_OPEN are SEC's own. -/
def slotsOf (r : Req) (p : Nat) (part : Nat × Nat) : Nat := if r.tenant = 0xFF then 0 else progSlots p part.2

/-- Slots that the tenants of a condition hold, with the partition they are of: programs on engines or waiting, and key generations
(R270). -/
def holdersWhere (c : Byte → Bool) (d : Dev) : List (Nat × (Nat × Nat)) :=
  let of (j : PkJob) : List (Nat × (Nat × Nat)) := if c j.tenant && j.slots != 0 then [(j.slots, j.part)] else []
  d.pk.engines.flatMap (fun e => (e.job.map of).getD []) ++ d.pk.waiting.flatMap of
    ++ d.sched.longs.flatMap (fun l => match l.data with
      | .rsa x => if c l.tenant && !l.state.final && x.slots != 0 then [(x.slots, x.part)] else []
      | _ => [])

def holders (d : Dev) (t : Byte) : List (Nat × (Nat × Nat)) := holdersWhere (· == t) d

def heldSlots (d : Dev) (t : Byte) : Nat := ((holders d t).map (·.1)).foldl (· + ·) 0

def operandBytes (l : List (Nat × (Nat × Nat))) : Nat := (l.map (fun x => x.1 * 6 * x.2.2)).foldl (· + ·) 0

/-- Bytes of operand memory a tenant holds. -/
def heldOperandBytes (d : Dev) (t : Byte) : Nat := operandBytes (holders d t)

/-- The tenants' 224 KiB of operand memory hold n more slots of a partition: not while another tenant still holds what a new generation
took from it (R563). -/
def operandRoom (d : Dev) (part : Nat × Nat) (n : Nat) : Bool :=
  n == 0 || decide (operandBytes (holdersWhere (fun _ => true) d) + n * 6 * part.2 ≤ 224 * 1024)

/-- The footprint fits the free slots, under one partition at a time (R398, R400). -/
def slotsFree (d : Dev) (t : Byte) (part : Nat × Nat) (n : Nat) : Bool :=
  n == 0 || (decide (heldSlots d t + n ≤ partSlots part) && (holders d t).all (fun x => x.2 == part))

-- Engines

def engineJob (d : Dev) (e : Nat) : Option PkJob := (d.pk.engines.getD e {}).job

def longRuns (d : Dev) : Bool := d.pk.engines.any (fun e => (e.job.map (fun j => isLongProg j.prog)).getD false)

/-- An engine that can take a program now: in service, idle, no throttle (R54), one long program at a time (R253); the lowest of
several (DESIGN CHOICE, log 61). -/
def freeEngine (d : Dev) (p : Nat) (avoid : Option Nat) : Option Nat :=
  if d.power.throttle || (isLongProg p && longRuns d) || dispatchStopped d then none
  else (List.range 2).find? (fun e => engineServes d e && (engineJob d e).isNone && avoid != some e)

def modEngine (e : Nat) (f : Engine → Engine) (d : Dev) : Dev := { d with pk := { d.pk with engines := modAt d.pk.engines e f } }

/-- A program starts: its time is charged (R243); trace point 17. -/
def startProg (e : Nat) (j : PkJob) (d : Dev) : Dev :=
  traceT Core.sch 17 j.tenant (word (0x20 + e)) (word j.tenant.toNat) (noteBusy (chargePk j.tenant j.prog
    (modEngine e (fun x => { x with job := some { j with started := d.now } })
      { d with pk := { d.pk with waiting := d.pk.waiting.erase j }, power := { d.power with workAt := d.now } })))

/-- Ticks of programs on the clock the core runs on (R401; the fallback clock at its nominal rate, DESIGN CHOICE, log 85). -/
def progTicks (d : Dev) (ps : List Nat) : Nat :=
  let us := (ps.map progUs).foldl (· + ·) 0
  if d.time.coreRc then ceilDiv (usTicks us * 196608) 171875 else usTicks us

/-- The programs would end after the command's deadline (R259, R414). -/
def pastDeadline (d : Dev) (r : Req) (ps : List Nat) : Bool := !ps.isEmpty && decide (r.deadline < d.now + progTicks d ps)

/-- A public-key program can run (R419, R420). -/
def needEngine (d : Dev) (p : Nat) : Res Unit := do
  need (anyEngine d) St.internalFault
  need (isVerifyProg p || d.sym.randomOk) St.internalFault

/-- Resources of a program (R398, R419, R420, R563). -/
def needProg (r : Req) (p : Nat) (d : Dev) : Res Unit := do
  let part := partOf d r
  let n := slotsOf r p part
  needEngine d p
  need (decide (n ≤ partSlots part)) St.quota
  need (!slotsFree d r.tenant part n || operandRoom d part n) St.busyRetry

/-- Starts the program of a checked command, with those that follow it on its engine, or leaves the command waiting when no engine or
slot is free after all. -/
def launch (r : Req) (ps : List Nat) (slot : Option SlotRef) (work : PkWork) (d : Dev) : Res (Dev × Done) :=
  let p := ps.headD 0
  let part := partOf d r
  let n := slotsOf r p part
  match freeEngine d p none with
  | some e =>
    if slotsFree d r.tenant part n then
      okLater (startProg e { req := r, prog := p, chain := ps.drop 1, began := d.now, tenant := r.tenant, slots := n, part := part
                             slot := slot, work := work } d)
    else .ok (d, .wait)
  | none => .ok (d, .wait)

/-- An engine is in service, idle and not held back by the throttle (R54). -/
def engineIdle (d : Dev) : Bool := !d.power.throttle && (List.range 2).any (fun e => engineServes d e && (engineJob d e).isNone)

/-- SEC's own programs run on an engine that is idle at the moment (DESIGN CHOICE, log 54); the command waits while none is, and
without any in service it ends with INTERNAL_FAULT (R420). -/
def untilEngine (d : Dev) (x : Res (Dev × Done)) : Res (Dev × Done) :=
  if !anyEngine d then rej St.internalFault else if engineIdle d then x else .ok (d, .wait)

end Sys2Proof.Machine
end

