-- ==== Sys2Proof/Machine/Sessions.lean ====
section
/-! DEFINITION. Sessions, frame protection, the opcode map and admission (R183-R190, R197, R213-R231, R245-R259). -/
namespace Sys2Proof.Machine

-- Opcode map (R705)

/-- Opcodes a Pliram frame may carry while firmware runs; true marks the long-operation form (R187). -/
def frameOpcodes : List (Nat × Bool) :=
  [0x0101, 0x0102, 0x0110, 0x0111, 0x0112, 0x0113, 0x0201, 0x0202, 0x0203, 0x0204, 0x0205, 0x0206, 0x02F0, 0x02F1,
    0x02F2].map (·, false)
  ++ [0x0301, 0x0302, 0x0303, 0x0304, 0x0306, 0x0307, 0x0310, 0x0311, 0x0312, 0x0313, 0x0314, 0x0401, 0x0402, 0x0411,
    0x0501, 0x0511, 0x0601, 0x0602, 0x0603, 0x0604, 0x0611, 0x0620].map (·, false)
  ++ [0x0701, 0x0702, 0x0703, 0x0711, 0x0712, 0x0720, 0x0730, 0x0801, 0x0802, 0x0803, 0x0804, 0x0805, 0x0806, 0x0810,
    0x0811, 0x0901, 0x0902, 0x0903, 0x0904, 0x0A01, 0x0A02, 0x0A03].map (·, false)
  ++ [0x0B01, 0x0B02, 0x0B03, 0x0B10, 0x0B11, 0x0B12, 0x0C01, 0x0C02, 0x0C03, 0x0C04, 0x0C05, 0x0C06, 0x0D02, 0x0D03,
    0x0D04, 0x0D05, 0x0D06, 0x0D07, 0x0D10].map (·, false)
  ++ [0x0E01, 0x0E02, 0x0E03, 0x0E04, 0x0E05, 0x0E06, 0x0F01, 0x0F02, 0x0F04, 0x0F05, 0x0F06, 0x0F07, 0x1101, 0x1102,
    0x1103, 0x1104, 0x1105, 0x1106, 0x1107, 0x1108, 0x1109, 0x110A, 0x110B, 0x1110, 0x1111, 0x1112].map (·, false)
  ++ [0x0305, 0x0410, 0x0510, 0x0610, 0x0710, 0x0D01, 0x0F03].map (·, true)

def opcodeForm (op : Nat) : Option Bool := (frameOpcodes.find? (fun x => x.1 == op)).map (·.2)

/-- Opcodes a management packet may carry, and whether the packet is authenticated (R651). -/
def mgmtOpcodes : List (Nat × Bool) :=
  [(0x1001, false), (0x1002, false), (0x1003, false), (0x1004, false), (0x1010, true), (0x1011, true), (0x1020, true),
    (0x1021, true), (0x1030, false), (0x1040, true)]

/-- Opcodes served in open frames (R185, R473). -/
def openOpcode (d : Dev) (op : Nat) : Bool :=
  [0x0101, 0x0102, 0x0110, 0x0B01, 0x0B02, 0x0B03].contains op ||
    (op == 0x0712 && (d.lifecycle = .returned || d.lifecycle = .scorched))

-- Sessions

def sessionAt (x : PortRegs) (sid : Byte) : Option Session := x.sessions.find? (fun s => s.id == sid && s.closing.isNone)

def modSession (p : Port) (sid : Byte) (f : Session → Session) (d : Dev) : Dev :=
  d.modPort p (fun x => { x with sessions := modWhere (fun s => s.id == sid) f x.sessions })

/-- Staged entries of a closed session's commands are orphaned (R276). -/
def orphan (p : Port) (opened : Nat) (d : Dev) : Dev :=
  (d.cmds.filter (fun r => r.origin == .port p && r.mac && r.opened == opened)).foldl (fun d r => dropStaged r.id false d) d

/-- Closes the session of an id on a port and sets SESSION_CLOSED (R221). -/
def closeSession (p : Port) (sid : Byte) (d : Dev) : Dev :=
  match (d.port p).sessions.find? (fun s => s.id == sid) with
  | some s =>
    logAt Core.sec 81 (word sid.toNat) (word (Config.unstated 81 [])) false <| attnBit Attn.sessionClosed p
      (orphan p s.opened (d.modPort p (fun x => { x with sessions := x.sessions.filter (fun s => s.id != sid) })))
  | none => d

/-- Closes every session of a port that satisfies a condition. -/
def closeWhere (p : Port) (c : Session → Bool) (d : Dev) : Dev :=
  (((d.port p).sessions.filter c).map (·.id)).foldl (fun d sid => closeSession p sid d) d

-- Frame protection (R214, R215)

/-- The six wire bytes of a full frame counter. -/
def ctrBytes (c : Nat) : List Byte := wordBytes (word c)

/-- The MAC of an unencrypted frame under K_mac (R214). -/
def frameMac (s : Session) (ctr : Nat) (head payload : List Word) : List Byte :=
  (cmac s.kmac (ctrBytes ctr ++ wordsBytes head ++ wordsBytes payload)).take 12

/-- The 12-byte nonce of an encrypted frame (R215). -/
def frameNonce (reply : Bool) (p : Port) (s : Session) (ctr : Nat) : List Byte :=
  [if reply then 2 else 1, s.id, BitVec.ofNat 8 p.code, s.tenant] ++ ctrBytes ctr ++ [0, 0]

/-- The clear payload words of a protected request, or none when its MAC or tag fails (R214, R215). -/
def openPayload (p : Port) (s : Session) (ctr : Nat) (enc : Bool) (head payload mac : List Word) : Option (List Word) :=
  if enc then
    let iv := frameNonce false p s ctr
    let aad := ctrBytes ctr ++ wordsBytes head
    let ct := wordsBytes payload
    if (gcmTag s.kenc iv aad ct).take 12 == wordsBytes mac then some (bytesWords (gcmCrypt s.kenc iv ct)) else none
  else if frameMac s ctr head payload == wordsBytes mac then some payload else none

/-- Full request counter of R217: last + d, or none for REPLAY. -/
def fullCounter (last field : Nat) : Option Nat :=
  let dd := (field + 65536 - last % 65536) % 65536
  if dd = 0 ∨ 61440 < dd then none else some (last + dd)

/-- A SESSION_MAC or REPLAY outcome on an open session; the sixteenth in a row closes it (R219). -/
def badOutcome (p : Port) (sid : Byte) (d : Dev) : Dev :=
  match sessionAt (d.port p) sid with
  | none => d
  | some s => if s.bad + 1 ≥ 16 then closeSession p sid d else modSession p sid (fun s => { s with bad := s.bad + 1 }) d

/-- The outcome of R197 step 1: the clear payload, or the status to answer; with the device after it. -/
def verifyRequest (p : Port) (r : Req) (head payload mac : List Word) (d : Dev) : Dev × Except Byte Req :=
  match sessionAt (d.port p) r.session with
  | none => (d, .error St.sessionMac)
  | some s =>
    if s.tenant ≠ r.tenant then (badOutcome p r.session d, .error St.sessionMac)
    else
      match fullCounter s.reqCtr r.counter.toNat with
      | none => (badOutcome p r.session d, .error St.replay)
      | some c =>
        if c ≥ 2 ^ 48 then (badOutcome p r.session d, .error St.sessionMac)
        else
          match openPayload p s c r.enc head payload mac with
          | none => (badOutcome p r.session d, .error St.sessionMac)
          | some ws =>
            let d := modSession p r.session (fun s => { s with reqCtr := c, bad := 0, seen := d.now }) d
            let d := if c = 2 ^ 48 - 1 then closeSession p r.session d else d
            (d, .ok { r with words := ws, opened := s.opened, admin := s.tenant == 0 && s.options.getLsbD 1 })

-- Form (R183-R187)

/-- Padding bytes behind the payload's L bytes are zero (R183). -/
def padOk (r : Req) : Bool := ((wordsBytes r.words).drop r.len).all (· == 0)

def formOk (r : Req) : Bool :=
  r.flags.toNat < 16 && !(r.version == 2 && r.urgent) && (r.mac || !r.enc) &&
    (r.mac || (r.tenant == 0xFF && r.session == 0)) && padOk r &&
    (match opcodeForm r.opcode.toNat with
     | some l => l == r.long
     | none => true)

-- Port roles (R224-R228)

/-- SESSION_OPEN with the ADMIN option. -/
def opensAdmin (r : Req) : Bool := r.opcode == 0x0110 && bitOf (r.w 0) 25

/-- The failover timeout in ticks (pattern P8 [39:30], in 0.1 s). -/
def failoverTicks (d : Dev) : Nat := ceilDiv (d.cfg 8 39 30 * 4096) 10

/-- R225, R227 and R228: the refusal of an admin command, or the device after a failover. -/
def portRole (p : Port) (r : Req) (d : Dev) : Dev × Option Byte :=
  if isAdminCmd r && !r.admin then (d, some St.policyRefused)
  else if isAdminCmd r || opensAdmin r then
    let q := primaryPort d
    match adminSession (d.port q) with
    | none => (d, none)
    | some s =>
      if p = q then (d, none)
      else if d.now ≤ (d.port q).heard + failoverTicks d then (d, some St.busyRetry)
      else (attnBoth Attn.failover (closeSession q s.id d), none)
  else (d, none)

-- Admission (R245-R250, R257, R559)

/-- Band of a command (R247-R249). -/
def bandOf (rec : List Word) (r : Req) : Nat :=
  if r.tenant == 1 then 0
  else if r.urgent then max 1 (recBand rec - 1) else recBand rec

/-- Ticks of a deadline on the clock the core runs on: the fallback clock's slower rate scales it, taken at its nominal 176 MHz (R70; DESIGN CHOICE, log 85). -/
def coreTicks (d : Dev) (ms : Nat) : Nat :=
  if d.time.coreRc then ceilDiv (msTicks ms * 196608) 171875 else msTicks ms

/-- The band's deadline in ticks (pattern P9, R257). -/
def bandTicks (d : Dev) (band : Nat) : Nat :=
  coreTicks d (match band with
    | 0 => d.cfg 9 47 39
    | 1 => d.cfg 9 38 30
    | 2 => d.cfg 9 29 21
    | _ => d.cfg 9 20 12)

/-- Admission step 6: the deadline starts, the row of the matrix in force is bound (R28), a queue slot is taken. -/
def place (r : Req) (band : Nat) (d : Dev) : Dev :=
  traceT Core.sch 16 r.tenant (mkWord [(47, 40, r.tenant.toNat), (31, 16, r.opcode.toNat)]) (word r.tag.toNat)
    (takeSlot r { d with
      cmds := d.cmds ++ [{ r with band := band, start := d.now, deadline := d.now + bandTicks d band, barred := rowRefusal r d }] })

/-- SCH admits a command or answers it (admission steps 1 to 6; open frames belong to no tenant, log 18). A tenant whose held count
is being recounted is answered BUSY_RETRY (R283; DESIGN CHOICE, log 65). -/
def admitCmd (r0 : Req) (d : Dev) : Dev :=
  let r := { r0 with gen := d.pat.gen }
  if r.tenant == 0xFF then
    if heldBy d (fun _ => true) ≥ 496 then refuseWith r St.busyRetry 0 d else place r 2 d
  else
    match d.tenant d.pat.gen r.tenant with
    | none => refuseWith r St.policyRefused 0 d
    | some rec =>
      let st := statOf d r.tenant
      if recState rec ≠ 1 then refuseWith r St.policyRefused 0 d
      else if d.sched.mismatched.contains r.tenant then refuseWith r St.busyRetry 0 d
      else if d.sched.tableBroken && r.tenant != 0 && r.tenant != 1 then refuseWith r St.policyRefused 0 d
      else if r.urgent && !recRight rec 1 && r.opcode != 0x0311 then refuseWith r St.policyRefused 0 d
      else if r.urgent && decide (recUrgent rec ≤ st.urgent) then refuseWith r St.quota 0 d
      else if heldBy d (· == r.tenant) ≥ recQueue rec then refuseWith r St.quota 0 d
      else if heldBy d (fun _ => true) ≥ 496 then refuseWith r St.busyRetry 0 d
      else if r.long && decide (recLongs rec ≤ (d.sched.longs.filter (fun l => l.tenant == r.tenant)).length) then
        refuseWith r St.quota 0 d
      else if r.long && decide (64 ≤ d.sched.longs.length) then refuseWith r St.busyRetry 0 d
      else
        place r (bandOf rec r) (if r.urgent then modStat r.tenant (fun x => { x with urgent := x.urgent + 1 }) d else d)

/-- What becomes of an accepted frame: the checks of R197 steps 1 to 5, then admission. -/
def accepted (p : Port) (r0 : Req) (head payload mac : List Word) (d0 : Dev) : Dev :=
  let r0 := { r0 with id := d0.nextId, gen := d0.pat.gen, start := d0.now, deadline := d0.now }
  let d0 := { d0 with nextId := d0.nextId + 1, power := { d0.power with frameAt := d0.now } }
  let (d, v) := if r0.mac then verifyRequest p r0 head payload mac d0 else (d0, .ok { r0 with words := payload })
  match v with
  | .error st => complete r0 st [] 0 d
  | .ok r =>
    if d.power.pfn then complete r (powerLossStatus r d) [] 0 d
    else if !formOk r then complete r St.paramRange [] 0 d
    else
      match opcodeForm r.opcode.toNat with
      | none => complete r St.opcodeUnknown [] 0 d
      | some _ =>
        if r.layout ≠ 1 then complete r St.layoutRevision [] 0 d
        else if !r.mac && !openOpcode d r.opcode.toNat then refuseWith r St.policyRefused 0 d
        else if r.mac && !r.enc && (((sessionAt (d0.port p) r.session).map (fun s => s.options.getLsbD 0)).getD false) then
          refuseWith r St.policyRefused 0 d
        else
          let (d, role) := portRole p r d
          match role with
          | some st => refuseWith r st 0 d
          | none => admitCmd r d

/-- The boot ROM takes BOOT_PUSH alone, on the port it waits for, or on both in RECOVERY (R148, R158); none under PF_N (R46). -/
def romAccepted (p : Port) (r0 : Req) (payload : List Word) (d : Dev) : Dev :=
  let r := { r0 with id := d.nextId, words := payload, gen := d.pat.gen, start := d.now, deadline := 2 ^ 48 }
  let d := { d with nextId := d.nextId + 1 }
  let src := if p = .a then 3 else 4
  if d.power.pfn then complete r St.busyRetry [] 0 d
  else if r.opcode == 0x0D00 && r.tenant == 0xFF && r.session == 0 && r.flags == 0 && r.layout == 1 &&
      (d.boot.progress == 0x0C || (d.boot.progress == 0x05 && d.fw.source == src)) then
    if padOk r then { d with cmds := d.cmds ++ [r] } else complete r St.paramRange [] 0 d
  else complete r St.opcodeUnknown [] 0 d

end Sys2Proof.Machine
end

