-- ==== Sys2Proof/Machine/Link.lean ====
section
/-! DEFINITION. The host link (05_host_link): frames, rings, registers and the class 0x01 commands. -/
namespace Sys2Proof.Machine

-- Partial frames (R191-R196)

/-- Discards a partial frame: DISCARD_COUNT and PARTIAL_DISCARD (R193). -/
def discardPartial (p : Port) (d : Dev) : Dev :=
  let x := d.port p
  if x.rx.isEmpty || x.rxDead then d.modPort p (fun x => { x with rx := [], rxDead := false })
  else attnBit Attn.partialDiscard p (d.modPort p (fun x => { x with rx := [], rxDead := false, discard := x.discard + 1 }))

def frameLen (ws : List Word) : Nat := fld (wd ws 1) 47 24

def frameMacBit (ws : List Word) : Bool := bitOf (wd ws 1) 19

/-- Words of the whole frame by its H1 (R191). -/
def frameWords (ws : List Word) : Nat := 2 + ceilDiv (frameLen ws) 6 + 2 * flag (frameMacBit ws) + 1

/-- The four words of a refusal-slot reply (R195). -/
def refusalReply (d : Dev) (ws : List Word) (st : Byte) (ctr : Nat) : RingReply :=
  let h0 := wd ws 0
  let body := [setFld h0 47 40 3, mkWord [(47, 24, 0), (23, 16, st.toNat), (15, 8, 1), (7, 0, fld (wd ws 1) 7 0)],
    replyH2 d.pat.gen d.now]
  { tag := BitVec.ofNat 16 (fld h0 15 0), words := body ++ [trailer ctr body] }

/-- A frame-level refusal: into the refusal slot, or discarded and counted when that is occupied (R195, R196); a head
that a ring reply already is stays (R178). -/
def frameRefusal (p : Port) (ws : List Word) (st : Byte) (ctr : Nat) (s : State) : State :=
  match (s.flow.port p).refusal with
  | some _ =>
    { s with dev := attnBit Attn.overrun p (s.dev.modPort p (fun x => { x with discard := x.discard + 1 })) }
  | none =>
    let f := s.flow.port p
    { s with flow := s.flow.setPort p { f with refusal := some (refusalReply s.dev ws st ctr), ringHead := !f.ring.isEmpty } }

/-- The fields of a received frame. -/
def frameReq (p : Port) (ws : List Word) : Req :=
  let h0 := wd ws 0
  let h1 := wd ws 1
  { origin := .port p, version := BitVec.ofNat 8 (fld h0 47 40), tenant := BitVec.ofNat 8 (fld h0 39 32)
    opcode := BitVec.ofNat 16 (fld h0 31 16), tag := BitVec.ofNat 16 (fld h0 15 0), len := fld h1 47 24
    flags := BitVec.ofNat 8 (fld h1 23 16), layout := BitVec.ofNat 8 (fld h1 15 8), session := BitVec.ofNat 8 (fld h1 7 0)
    counter := BitVec.ofNat 16 (fld (ws.getLastD 0) 47 32), ringWords := ws.length }

/-- The complete frame: checks 4 to 6 of R194, then acceptance into the mailbox. -/
def frameComplete (p : Port) (ws : List Word) (s : State) : State :=
  let last := ws.getLastD 0
  let ctr := fld last 47 32
  let f := s.flow.port p
  let r := frameReq p ws
  let n := ceilDiv r.len 6
  if (crc32c (wordsBytes ws.dropLast)).toNat ≠ fld last 31 0 then frameRefusal p ws St.frameCrc ctr s
  else if r.version ≠ 2 ∧ r.version ≠ 3 then frameRefusal p ws St.formatVersion ctr s
  else if f.mailbox + f.ring.length ≥ p.credits then frameRefusal p ws St.noCredit ctr s
  else
    let d := s.dev.modPort p (fun x => { x with rxUsed := x.rxUsed + ws.length, heard := s.dev.now })
    let d := if d.power.state = .standby ∨ d.power.state = .idle then { d with power := { d.power with state := .active } } else d
    { s with
      flow := s.flow.setPort p { f with mailbox := f.mailbox + 1 }
      dev := if d.boot.running then accepted p r (ws.take 2) (slice ws 2 n) (slice ws (2 + n) 2) d
        else romAccepted p r (slice ws 2 n) d }

/-- Words arrive for the frame being assembled: the checks at H1, then completion (R191, R194) (DEDUCED, log 40). -/
def frameWordsIn (p : Port) (old new : List Word) (s : State) : State :=
  let ws := old ++ new
  let put (w : List Word) (dead : Bool) (s : State) : State :=
    { s with dev := s.dev.modPort p (fun x => { x with rx := w, rxDead := dead }) }
  if ws.length < 2 then put ws false s
  else
    let x := s.dev.port p
    if old.length < 2 ∧ frameLen ws > p.payloadMax then put ws true (frameRefusal p ws St.frameLength 0 s)
    else if old.length < 2 ∧ frameWords ws > p.ringSize - x.rxUsed then
      put ws true (frameRefusal p ws St.busyRetry 0 s)
    else if ws.length < frameWords ws then put ws false s
    else
      let s' := frameComplete p (ws.take (frameWords ws)) (put [] false s)
      if ws.length > frameWords ws then { s' with dev := attnBit Attn.linkError p s'.dev } else s'

/-- A FRAME_WRITE at offset 0: a partial frame goes, and a new one begins or, with ADMIT 0, is discarded and counted (R191, R193,
R194). -/
def frameStart (p : Port) (words : List Word) (s : State) : State :=
  let s := { s with dev := discardPartial p s.dev }
  if (s.dev.port p).admitting then frameWordsIn p [] words s
  else { s with dev := s.dev.modPort p (fun x => { x with discard := x.discard + 1, rxDead := true, rx := words }) }

/-- REQUEST_FRAME (R173, R191-R197): the words of a frame that has been answered or discarded are ignored, but a wrong offset is a
LINK_ERROR there too (R192). -/
def execRequestFrame (p : Port) (offset : Nat) (words : List Word) (s : State) : Out :=
  .next (if portLive s.dev p then
    let x := s.dev.port p
    if offset = 0 then frameStart p words s
    else if offset ≠ x.rx.length then { s with dev := attnBit Attn.linkError p s.dev }
    else if x.rxDead then { s with dev := s.dev.modPort p (fun x => { x with rx := x.rx ++ words }) }
    else frameWordsIn p x.rx words s
  else s)

/-- PARTIAL_FRAME_TIMEOUT (R193). -/
def execPartialFrameTimeout (p : Port) (s : State) : Out := lift (discardPartial p) s

/-- ABORT_RX (R193). -/
def execAbortRx (p : Port) (s : State) : Out := lift (fun d => if portLive d p then discardPartial p d else d) s

/-- LINK_ERROR: the transaction is ignored and the cause set (R173, R174, R192). -/
def execLinkError (p : Port) (s : State) : Out :=
  lift (fun d => if portLive d p then attnBit Attn.linkError p d else d) s

-- Replies (R177, R178, R188, R189, R198, R202, R204)

/-- The reply of a completed command on the wire: its words, and the device after the reply counter's advance (R218).
A reply whose session has closed is SESSION_MAC without payload (R223). -/
def wireReply (p : Port) (x : Reply) (d : Dev) : List Word × Dev :=
  let r := x.req
  let wants := r.mac && x.status != St.sessionMac && x.status != St.replay
  let h (bytes : Nat) (st : Byte) : List Word :=
    [replyH0 r.version.toNat r, replyH1 bytes st r.session] ++ (if r.version == 2 then [] else [replyH2 r.gen x.tick])
  let plain (body : List Word) (ctr : Nat) : List Word := body ++ [trailer ctr body]
  if !wants then (plain (h x.bytes (wireStatus r x.status) ++ x.words) r.counter.toNat, d)
  else
    match (d.port p).sessions.find? (fun s => s.id == r.session && s.tenant == r.tenant && s.opened == r.opened &&
        (s.closing.isNone || s.closing == some r.id)) with
    | none => (plain (h 0 St.sessionMac) r.counter.toNat, d)
    | some s =>
      let head := h x.bytes (wireStatus r x.status)
      let iv := frameNonce true p s s.repCtr
      let aad := ctrBytes s.repCtr ++ wordsBytes head
      let body := if r.enc then
          let ct := gcmCrypt s.kenc iv (wordsBytes x.words)
          head ++ bytesWords ct ++ macWords (gcmTag s.kenc iv aad ct)
        else head ++ x.words ++ macWords (frameMac s s.repCtr head x.words)
      let d := if s.closing.isSome then
          attnBit Attn.sessionClosed p (d.modPort p (fun y => { y with sessions := y.sessions.filter (fun t => t.id != s.id) }))
        else modSession p s.id (fun t => { t with repCtr := t.repCtr + 1 }) d
      (plain body (s.repCtr % 65536), d)

def ringUsed (f : PortFlow) : Nat := (f.ring.map (fun r => r.words.length)).foldl (· + ·) 0

/-- The first reply in completion order that goes to a port. -/
def firstFor (p : Port) (l : List Reply) : Option Reply := l.find? (fun x => x.req.origin == .port p)

/-- The reply has entered the ring: the command's queue slot comes free, but for a long operation that goes on (R270, R278). -/
def retire (x : Reply) (d : Dev) : Dev := if x.status == St.accepted then d else freeSlot x.req.id d

/-- The outcome of a public-key program is delivered after the pause of an SCH or SEC handover (R408). -/
def deliveryPaused (x : Reply) (d : Dev) : Bool := x.req.cls == 6 && handoverPause d

/-- REPLY_ENQUEUE (R202): the reply enters the ring when it fits, and its credit moves from MAILBOX to PENDING (R198). -/
def execReplyEnqueue (p : Port) (s : State) : Out :=
  .next (match firstFor p s.dev.done with
    | none => s
    | some x =>
      let w := wireReply p x s.dev
      let f := s.flow.port p
      if ringUsed f + w.1.length ≤ p.ringSize ∧ 0 < f.mailbox ∧ deliveryPaused x s.dev = false then
        { s with
          flow := s.flow.setPort p { f with mailbox := f.mailbox - 1, ring := f.ring ++ [{ tag := x.req.tag, words := w.1 }] }
          dev := closeMixed (retire x { w.2 with done := w.2.done.erase x }) }
      else s)

/-- The head reply is released (R178). -/
def dropHead (f : PortFlow) : PortFlow :=
  if f.ringHead || f.refusal.isNone then { f with ring := f.ring.tail, ringHead := false } else { f with refusal := none }

/-- REPLY_RELEASE (R177, R178): the head reply goes when the tag is its tag. -/
def execReplyRelease (p : Port) (tag : BitVec 16) (s : State) : Out :=
  .next (if portLive s.dev p && ((headReply (s.flow.port p)).map (·.tag)) == some tag then
    { s with flow := s.flow.setPort p (dropHead (s.flow.port p)) }
  else s)

-- Held replies (R709, R717, R208, R529)

/-- Takes the held reply of a command and a kind out; it is answered as its own status. -/
def releaseHeld (k : HeldKind) (id : Nat) (f : Reply → Dev → Dev) (d : Dev) : Dev :=
  match d.held.find? (fun h => h.kind == k && h.reply.req.id == id) with
  | none => d
  | some h => f { h.reply with tick := d.now } { d with held := d.held.erase h }

/-- REFUSAL_DELIVERY (R709); a timer that could not be armed gives INTERNAL_FAULT (R717). None is delivered in the pause of an SCH or
an SEC handover (R714). -/
def execRefusalDelivery (id : Nat) (armed : Bool) (s : State) : Out :=
  lift (fun d => if handoverPause d then d else
    releaseHeld .refusal id (fun x d =>
      if armed then { d with done := d.done ++ [x] }
      else raiseFault 1 { d with done := d.done ++ [{ x with status := St.internalFault, words := [], bytes := 0 }] }) d) s

/-- A held reply whose fixed time has come (R208, R529). -/
def dueHeld (k : HeldKind) (id : Nat) (d : Dev) : Bool :=
  d.held.any (fun h => h.kind == k && h.reply.req.id == id && decide (h.due ≤ d.now))

/-- SESSION_OPEN_REPLY, 10.0 ms after the first program started (R208): the command completes. -/
def execSessionOpenReply (id : Nat) (s : State) : Out :=
  lift (fun d =>
    if dueHeld .sessionOpen id d then releaseHeld .sessionOpen id (fun x d => complete x.req x.status x.words x.bytes d) d else d) s

/-- CHALLENGE_REPLY at its fixed time (R529). -/
def execChallengeReply (id : Nat) (s : State) : Out :=
  lift (releaseHeld .challenge id (fun x d => { d with done := d.done ++ [x] })) s

-- Register writes (R176, R180)

/-- A write to a port register: ATTN_CAUSE clears by one but for REPLY, ATTN_MASK [11:0] is written, PORT_CONTROL bit 0 aborts. -/
def portRegWrite (p : Port) (i : Nat) (v : Word) (d : Dev) : Dev :=
  match i with
  | 1 => d.modPort p (fun x => { x with attn := x.attn &&& ~~~(v.setWidth 12) })
  | 2 => d.modPort p (fun x => { x with mask := v.setWidth 12 })
  | 6 => if bitOf v 0 then discardPartial p d else d
  | _ => d

-- Class 0x01 commands (R234)

/-- The issuer column's "Open": the command comes in an open frame (R234). -/
def needOpen (r : Req) : Res Unit := need (!r.inSession) St.policyRefused

/-- LINK_INFO. -/
def execLinkInfo (r : Req) (s : State) : Out :=
  hostCmd 0x0101 r (fun _ => needOpen r) (fun d => do
    param (r.len == 0)
    let p := match r.origin with
      | .port p => p
      | _ => .a
    okWords d ([linkVersion p] ++ d.serial ++ [mkWord [(47, 40, d.lifecycle.code), (23, 0, d.pat.gen)],
      mkWord [(47, 40, (primaryPort d).code), (15, 0, d.cfg 8 39 30)]])) s

/-- LINK_PING. -/
def execLinkPing (r : Req) (s : State) : Out :=
  hostCmd 0x0102 r (fun _ => .ok ()) (fun d => do
    param (r.len == 0)
    okNone d) s

def needSession (r : Req) : Res Unit := need r.mac St.policyRefused

/-- The open session that verified a command (R221, R223). -/
def ownSession (d : Dev) (p : Port) (r : Req) : Option Session :=
  (d.port p).sessions.find? (fun s => s.id == r.session && s.opened == r.opened && s.closing.isNone)

/-- SESSION_CLOSE: the session closes; its own reply still carries a MAC (R234). A session that has closed meanwhile is left as it is,
and the reply follows R223. -/
def execSessionClose (r : Req) (s : State) : Out :=
  hostCmd 0x0111 r (fun _ => needSession r) (fun d => do
    param (r.len == 0)
    match r.origin with
    | .port p =>
      match ownSession d p r with
      | some _ => okNone (orphan p r.opened (modSession p r.session (fun x => { x with closing := some r.id }) d))
      | none => okNone d
    | _ => okNone d) s

/-- SESSION_STATUS; W2 is the counter this reply carries. -/
def execSessionStatus (r : Req) (s : State) : Out :=
  hostCmd 0x0112 r (fun _ => needSession r) (fun d => do
    param (r.len == 0)
    match r.origin with
    | .port p =>
      match ownSession d p r with
      | some x => okWords d [mkWord [(47, 40, x.tenant.toNat), (39, 32, x.id.toNat), (31, 24, x.options.toNat), (15, 0, x.idle)],
          word x.reqCtr, word x.repCtr]
      | none => rej St.sessionMac
    | _ => rej St.policyRefused) s

/-- SESSION_REVOKE: closes the named tenant's sessions on both ports but the issuing one (R221). R237 names classes 0x02 and 0x0E for a
tenant of 0xFF; it is PARAM_RANGE here too (DESIGN CHOICE, log 66). -/
def execSessionRevoke (r : Req) (s : State) : Out :=
  hostCmd 0x0113 r (fun _ => needOwner r) (fun d => do
    param (r.sized 1 && onlyBits (r.w 0) [(47, 40)] && r.f 0 47 40 != 0xFF)
    let t : Byte := BitVec.ofNat 8 (r.f 0 47 40)
    let own (p : Port) (x : Session) : Bool := r.origin == .port p && x.id == r.session
    let c (p : Port) (x : Session) : Bool := x.tenant == t && !own p x && x.closing.isNone
    let n := (d.portA.sessions.filter (c .a)).length + (d.portB.sessions.filter (c .b)).length
    okWords (closeWhere .b (c .b) (closeWhere .a (c .a) d)) [word n]) s

/-- SESSION_IDLE_TIMEOUT: no verified request within the idle timeout (R221). -/
def execSessionIdleTimeout (p : Port) (sid : Byte) (s : State) : Out :=
  lift (fun d =>
    match sessionAt (d.port p) sid with
    | some x => if x.seen + x.idle * 4096 ≤ d.now then closeSession p sid d else d
    | none => d) s

-- SESSION_OPEN (R206-R213)

/-- Public key type of a tenant's authority: its bytes (R284). -/
def authorityBytes (kt : Nat) : Nat := if kt == 1 then 64 else if kt == 2 then 96 else 32

/-- "KV4856SO" and the other eight-byte prefixes. -/
def tagKV4856 (a b : Nat) : List Byte := ascii [0x4B, 0x56, 0x34, 0x38, 0x35, 0x36, a, b]

/-- The session-authority signature over W0-W13 and SERIAL: `scheme` 1 P-256 with SHA-256, 2 P-384 with SHA-384, 3 Ed25519. -/
def openSigOk (kt : Nat) (key : List Byte) (r : Req) (d : Dev) : Bool :=
  let msg := tagKV4856 0x53 0x4F ++ wordsBytes (fitW 14 r.words) ++ d.serialBytes
  let n := authorityBytes kt
  let sn := if kt == 2 then 96 else 64
  let block := r.bytesFrom 14 96
  sigHolds kt (key.take n) (if kt == 1 then sha256 msg else if kt == 2 then sha384 msg else msg) (block.take sn) [] 0
    && (block.drop sn).all (· == 0)

/-- PLIRAM-SESSION keys (R213). -/
def sessionKeys (z hostRnd devRnd : List Byte) (t sid : Byte) (p : Port) (d : Dev) : List Byte :=
  kdf z (ascii [0x50, 0x4C, 0x49, 0x52, 0x41, 0x4D, 0x2D, 0x53, 0x45, 0x53, 0x53, 0x49, 0x4F, 0x4E])
    (hostRnd ++ devRnd ++ [t, sid, BitVec.ofNat 8 p.code] ++ d.serialBytes) 512

/-- Lowest free session id of a port (R206, R209). -/
def freeSession (x : PortRegs) : Option Nat := (List.range 256).find? (fun i => !x.sessions.any (fun s => s.id.toNat == i))

/-- Holds a SESSION_OPEN outcome until 10.0 ms after its first program started, 40.96 ticks (R208). -/
def holdOpen (r : Req) (began : Nat) (st : Byte) (ws : List Word) (d : Dev) : Dev :=
  { d with held := d.held ++ [{
      kind := .sessionOpen, due := began + 40, reply := { req := r, status := st, words := ws, bytes := 6 * ws.length, tick := d.now } }] }

def openTenant (r : Req) : Byte := BitVec.ofNat 8 (r.f 0 47 40)

def openX25519 (r : Req) : Bool := r.f 0 39 32 == 2

/-- The session authority of the tenant that a SESSION_OPEN names: key type and public key, none for an absent tenant or key (R206). -/
def authorityOf (d : Dev) (r : Req) : Option (Nat × List Byte) :=
  (d.tenant r.gen (openTenant r)).bind (fun x => if recKeyType x == 0 then none else some (recKeyType x, wordsBytes (x.drop 4)))

/-- The programs of a SESSION_OPEN: verification, key generation, agreement, device signature (R207, R208). -/
def openPrograms (d : Dev) (r : Req) : List Nat :=
  (match (authorityOf d r).map (·.1) with
    | some 1 => 0x02
    | some 3 => 0x06
    | _ => 0x04) :: (if openX25519 r then [0x0C, 0x09, 0x03] else [0x0A, 0x07, 0x03])

/-- SESSION_OPEN's checks at dispatch; an absent tenant or key is verified against a P-384 key drawn at random (R207). A tenant of 0xFF
is PARAM_RANGE (DESIGN CHOICE, log 66). -/
def openBody (r : Req) (d : Dev) : Res (Dev × Done) := do
  param (r.sized 30 && onlyBits (r.w 0) [(47, 40), (39, 32), (25, 24), (15, 0)] && openTenant r != 0xFF &&
    (r.f 0 39 32 == 1 || r.f 0 39 32 == 2) && decide (r.f 0 15 0 ≤ 3600))
  param ((r.bytesFrom 3 66).drop (if openX25519 r then 32 else 64) |>.all (· == 0))
  match r.origin with
  | .port p =>
    need (!(opensAdmin r && (adminSession (d.port p)).isSome)) St.busyRetry
    need (freeSession (d.port p)).isSome St.busyRetry
    needEngine d 0x03
    match authorityOf d r with
    | some (kt, key) => launch r (openPrograms d r) none (.session kt key) d
    | none =>
      let (k, d) := drawBytes 56 d
      launch r (openPrograms d r) none (.session 0 (p384.publicOf (scalarFrom 0x11 k))) d
  | _ => rej St.policyRefused

/-- The session that a SESSION_OPEN with the shared secret z opens, and the reply's words W0 to W13. -/
def newSession (r : Req) (p : Port) (sid : Nat) (z pub : List Byte) (rnd : List Word) (d : Dev) : Session × List Word :=
  let t := openTenant r
  let ids : Byte := BitVec.ofNat 8 sid
  let keys := sessionKeys z (wordsBytes (slice r.words 1 2)) (wordsBytes rnd) t ids p d
  ({ id := ids, tenant := t, options := BitVec.ofNat 8 (r.f 0 31 24), idle := if r.f 0 15 0 == 0 then 600 else r.f 0 15 0, opened := r.id
     kenc := keys.take 32, kmac := keys.drop 32, seen := d.now },
    [mkWord [(47, 40, t.toNat), (39, 32, sid), (0, 0, flag d.att.key.isNone)]] ++ rnd ++ fitW 11 (bytesWords pub))

/-- The device signature of a SESSION_OPEN reply, zero without a device key (R210). -/
def openSignature (r : Req) (body : List Word) (d : Dev) : List Byte × Dev :=
  match d.att.key with
  | some k => makeSignature 2 k.ecPrivate (sha384 (tagKV4856 0x53 0x52 ++ wordsBytes (fitW 14 r.words) ++ wordsBytes body)) 0 d
  | none => ([], d)

/-- The end of a SESSION_OPEN's program chain (R206, R207, R209-R213, R225). -/
def openEnd (r : Req) (p : Port) (began kt : Nat) (key : List Byte) (d : Dev) : Dev :=
  if kt == 0 || !openSigOk kt key r d then holdOpen r began St.authFail [] d
  else
    let (k, d) := drawBytes (if openX25519 r then 32 else 40) d
    let ktype := if openX25519 r then 0x13 else 0x10
    let k := scalarFrom ktype k
    match agree (if openX25519 r then 3 else 1) k (r.bytesFrom 3 (if openX25519 r then 32 else 64)) with
    | none => holdOpen r began St.pkReject [] d
    | some z =>
      match freeSession (d.port p), opensAdmin r && (adminSession (d.port p)).isSome with
      | some sid, false =>
        let (rnd, d) := drawWords 2 d
        let (x, body) := newSession r p sid z (publicKey ktype k) rnd d
        let d := logAt Core.sec 80 (mkWord [(15, 8, x.tenant.toNat), (7, 0, sid)]) (word p.code) false
          (d.modPort p (fun y => { y with sessions := y.sessions ++ [x] }))
        let (sig, d) := openSignature r body d
        holdOpen r began St.ok (body ++ fitW 16 (bytesWords (sig.take 96))) d
      | _, _ => holdOpen r began St.busyRetry [] d

end Sys2Proof.Machine
end

