-- ==== Sys2Proof/Machine/Activations.lean ====
section
/-! DEFINITION. Placing applets on clusters, ending activations (R652, R653, R676-R681) and fencing units (R375-R377, R624, R625). -/
namespace Sys2Proof.Machine

-- Image fields (R672)

def imgCount (img : List Word) : Nat := fld (wd img 1) 47 32
def imgInit (img : List Word) : Nat := fld (wd img 1) 31 16
def imgSize (img : List Word) : Nat := fld (wd img 1) 15 0
def imgCodeWords (img : List Word) : Nat := ceilDiv (imgCount img) 2

/-- Instructions of the code words, the first of a pair in [47:24]. -/
def imgCode (img : List Word) : List (BitVec 24) :=
  ((slice img 8 (imgCodeWords img)).flatMap (fun w => [BitVec.ofNat 24 (fld w 47 24), BitVec.ofNat 24 (fld w 23 0)])).take (imgCount img)

/-- Data memory as a load leaves it: the initialised words, then zeros (R653). -/
def imgData (img : List Word) : List Word := fitW (imgSize img) (slice img (8 + imgCodeWords img) (imgInit img))

/-- Footprint in KiB: code bytes and data bytes, each in whole 4 KiB (R652). -/
def footprint (img : List Word) : Nat := 4 * (ceilDiv (3 * imgCount img) 4096 + ceilDiv (6 * imgSize img) 4096)

/-- Free sandbox area of a cluster, in KiB (R652). -/
def sandboxFree (d : Dev) (c : Nat) : Nat :=
  256 - ((d.app.applets.filter (fun x => x.loaded && x.cluster == c)).map (fun x => footprint x.image)).foldl (· + ·) 0

/-- The in-service cluster with the most free sandbox area, the lowest of equals (DESIGN CHOICE, log 22), when it holds the footprint. -/
def placeFor (d : Dev) (img : List Word) : Option Nat :=
  let best := ((List.range 4).filter (fun c => !clusterOut d c)).foldl (fun (b : Option Nat) c =>
    match b with
    | none => some c
    | some x => if sandboxFree d x < sandboxFree d c then some c else some x) none
  best.bind (fun c => if footprint img ≤ sandboxFree d c then some c else none)

-- End codes (R680)

def End.halt : Nat := 0
def End.codeBounds : Nat := 1
def End.dataBounds : Nat := 2
def End.fuelOut : Nat := 3
def End.trap : Nat := 4
def End.cluster : Nat := 5
def End.unloaded : Nat := 6
def End.output : Nat := 7
def End.cancelled : Nat := 8

def endState (code : Nat) : LongState × Byte :=
  match code with
  | 0 => (.done, St.ok)
  | 3 => (.failed, St.quota)
  | 5 => (.failed, St.internalFault)
  | 6 => (.cancelled, St.cancelled)
  | 8 => (.cancelled, St.cancelled)
  | _ => (.failed, St.paramRange)

/-- Unloads an applet; host calls that still wait for it end CANCELLED (R676, R679). -/
def unloadApplet (a : AppletRef) (d : Dev) : Dev :=
  let d := finishWhere (fun l => match l.data with
    | .applet b _ _ => a == b
    | _ => false) .cancelled St.cancelled d
  mapApplet a false { d with app := { d.app with applets := d.app.applets.filter (fun x => x.ref != a) } }

/-- After a CLUSTER end the applet loads again on another cluster that is in service, or stays unloaded (R681). -/
def reloadApplet (a : AppletRef) (d : Dev) : Dev :=
  match appletAt d a with
  | none => d
  | some x =>
    let away := mapApplet a false (modApplet a (fun x => { x with loaded := false }) d)
    let others := { away with sym := { away.sym with clusters := modAt away.sym.clusters x.cluster (fun c => { c with fenced := true }) } }
    match placeFor others x.image with
    | some c => modApplet a (fun x => { x with loaded := true, cluster := c, data := imgData x.image }) d
    | none => finishWhere (fun l => match l.data with
        | .applet b _ _ => a == b
        | _ => false) .cancelled St.cancelled away

/-- The running time of an activation since its last charge goes to its tenant's lane time (R655). The spec bounds a fuel unit by
8 cycles of the 200 MHz clock and gives no value: the time is left open within that bound (log 13). -/
def chargeApplet (a : AppletRef) (d : Dev) : Dev :=
  match (appletAt d a).bind (·.act) with
  | none => d
  | some t =>
    let f := t.budget - t.fuel - t.charged
    let us := min (Config.unstated 60 [d.now, t.fuel]) (ceilDiv (8 * f) 200)
    modStat a.tenant (fun x => { x with laneUs := x.laneUs + us })
      (modApplet a (fun x => { x with act := x.act.map (fun t => { t with charged := t.budget - t.fuel }) }) d)

/-- Ends the running activation of an applet with an end code (R680): its result words, the operation's final state, and what
the applet does next. -/
def endActivation (a : AppletRef) (code trap : Nat) (outLen : Nat) (out : List Word) (d : Dev) : Dev :=
  match appletAt d a with
  | none => d
  | some x =>
    match x.act with
    | none => d
    | some t =>
      let used := t.budget - t.fuel
      let res := [mkWord [(47, 40, code), (37, 23, t.pc), (13, 0, trap)], word used, word outLen] ++ out
      let fin := endState code
      let d := forgetCall a (chargeApplet a d)
      let d := modLong t.handle (fun l => { l with result := res, resultBytes := 18 + outLen }) d
      let d := finishLong t.handle fin.1 fin.2 d
      let d := modApplet a (fun x => { x with act := none, lastEnd := code }) d
      let d := if code == End.fuelOut then traceT Core.sec 214 a.tenant (word a.tenant.toNat) (word used) d
        else if code == End.halt || code == End.cancelled || code == End.unloaded then d
        else traceT Core.sec 213 a.tenant (word a.tenant.toNat) (word code) d
      if t.unload || (admitted d x).isNone then unloadApplet a d
      else nextActivation a (if code == End.cluster then reloadApplet a d else d)

/-- A suspension point of a running activation (R664, R671, R679). -/
def appletPoint (a : AppletRef) (d : Dev) : Dev :=
  match (appletAt d a).bind (·.act) with
  | none => d
  | some t =>
    match longAt d t.handle with
    | none => d
    | some l =>
      if t.unload || t.locked then endActivation a End.unloaded 0 0 [] d
      else if l.state = .cancelPending then endActivation a End.cancelled 0 0 [] d
      else suspensionPoint t.handle d

/-- A host call that ends before its activation began: the result of code 0x08 (R680). -/
def cancelUnstarted (h : BitVec 24) (d : Dev) : Dev :=
  finishLong h .cancelled St.cancelled (modLong h (fun l => { l with
    result := if l.kind == 6 then [mkWord [(47, 40, End.cancelled)], 0, 0] else l.result, resultBytes := if l.kind == 6 then 18 else l.resultBytes }) d)

/-- LONG_CANCEL as it takes effect: at once on a QUEUED or SUSPENDED operation, else at its next suspension point (R269). -/
def cancelLong (h : BitVec 24) (d : Dev) : Dev :=
  match longAt d h with
  | none => d
  | some l =>
    if l.state.final then d
    else if l.state = .queued || l.state = .suspended then
      match l.data with
      | .applet a _ _ =>
        match (appletAt d a).bind (·.act) with
        | some t => if t.handle == h && t.started then endActivation a (if t.unload || t.locked then End.unloaded else End.cancelled) 0 0 [] d
            else nextActivation a (cancelUnstarted h d)
        | none => cancelUnstarted h d
      | _ => cancelUnstarted h d
    else modLong h (fun l => { l with state := .cancelPending }) d

/-- APPLET_UNLOAD and the removal of its tenant (R679): a running activation ends UNLOADED at its next suspension point, a suspended
one at once, and with none the applet goes. -/
def requestUnload (a : AppletRef) (d : Dev) : Dev :=
  match appletAt d a with
  | none => d
  | some x =>
    match x.act with
    | none => unloadApplet a d
    | some t =>
      if !t.started then unloadApplet a d
      else
        let d := modApplet a (fun x => { x with act := x.act.map (fun t => { t with unload := true }) }) d
        if (longAt d t.handle).any (fun l => l.state = .suspended) then endActivation a End.unloaded 0 0 [] d else d

/-- Cancels every live operation that satisfies a condition (R240, R241). -/
def cancelOps (c : LongOp → Bool) (d : Dev) : Dev :=
  ((d.sched.longs.filter (fun l => c l && !l.state.final)).map (·.handle)).foldl (fun d h => cancelLong h d) d

/-- The control core of a cluster stops: its activations end CLUSTER (R623, R577); a fence also takes the idle applets' SRAM (R653). -/
def clusterApplets (c : Nat) (fenced : Bool) (d : Dev) : Dev :=
  (d.app.applets.filter (fun x => x.loaded && x.cluster == c)).foldl (fun d x =>
    if x.act.any (fun t => t.started) then endActivation x.ref End.cluster 0 0 [] d
    else if fenced then reloadApplet x.ref d else d) d

-- Fences

def modLane (l : Nat) (f : Lane → Lane) (d : Dev) : Dev := { d with sym := { d.sym with lanes := modAt d.sym.lanes l f } }

def modCluster (c : Nat) (f : Cluster → Cluster) (d : Dev) : Dev :=
  { d with sym := { d.sym with clusters := modAt d.sym.clusters c f } }

/-- The FENCE record, its alert and its trace point (R377, R625). -/
def reportFence (unit cause : Nat) (d : Dev) : Dev :=
  healthWrite 2 (logAt Core.sec 6 (word unit) (word cause) false (alertBit Alert.fence d))

/-- Work on a lane returns to SCH, to be computed again from its saved input state (R371, R375, R623). -/
def requeueLane (l : Nat) (d : Dev) : Dev :=
  match (d.sym.lanes.getD l {}).job with
  | none => d
  | some j =>
    modLane l (fun x => { x with job := none }) { d with sym := { d.sym with waiting := d.sym.waiting ++ [j] } }

/-- Fences a whole cluster (R376, R624): lanes, hash unit, control core and SRAM; LS returns to spare when it stood in there. -/
def fenceCluster (c : Nat) (d : Dev) : Dev :=
  let d := requeueLane (2 * c + 1) (requeueLane (2 * c) d)
  let d := { d with sym := { d.sym with standIn := match d.sym.standIn with
    | some l => if l / 2 == c then none else some l
    | none => none } }
  clusterApplets c true (modCluster c (fun x => { x with fenced := true }) d)

/-- Fences a lane (R375, R376): LS stands in for it when LS is free; a second fenced lane of a cluster fences the cluster, as
the second result says. -/
def fenceLane (l : Nat) (d : Dev) : Dev × Bool :=
  let d := modLane l (fun x => { x with fenced := true, owesKat := false }) (requeueLane l d)
  if l == 8 then ({ d with sym := { d.sym with standIn := none } }, false)
  else
    let partner := if l % 2 == 0 then l + 1 else l - 1
    if laneOut d partner && !clusterOut d (clusterOf l) then (fenceCluster (clusterOf l) d, true)
    else if d.sym.standIn.isNone && !laneOut d 8 then ({ d with sym := { d.sym with standIn := some l } }, false)
    else (d, false)

end Sys2Proof.Machine
end

