-- ==== Sys2Proof/Machine/Journal.lean ====
section
/-! DEFINITION. The selvedge journal (10_journal): record coding, segments, hems, appends in two phases, summaries and folding. -/
namespace Sys2Proof.Machine

-- Distance (R90)

/-- D = D_b + floor((P - P_b) * 1,000,000 / k), in mm (R90). -/
def distanceOf (x : DistState) : Nat := x.db.toNat + (x.pulses.toNat - x.pb.toNat) * 1000000 / x.k

def Dev.distance (d : Dev) : Word := word (distanceOf d.dist)

-- Record types (R444): width, signed, k of each field after TICK and DIST

def recordFields (t : Nat) : List (Nat × Bool × Nat) :=
  match t with
  | 0x10 => [(6, false, 0), (2, false, 0), (24, true, 4), (4, false, 0)]
  | 0x11 => [(8, false, 0), (4, false, 0)]
  | 0x12 => [(3, false, 0)]
  | 0x13 => [(2, false, 0), (48, false, 4), (3, false, 0)]
  | 0x20 => [(1, false, 0), (2, false, 0), (1, false, 0)]
  | 0x21 => [(1, false, 0), (1, false, 0), (96, false, 0)]
  | 0x22 => [(1, false, 0), (2, false, 0), (48, false, 16), (48, false, 16)]
  | 0x23 => [(1, false, 0)]
  | 0x30 => [(1, false, 0), (16, false, 4), (17, false, 8)]
  | 0x31 => [(48, false, 16), (11, false, 0)]
  | 0x32 => [(3, false, 0), (8, false, 0), (48, true, 16), (48, true, 16), (48, false, 16)]
  | 0x33 => [(1, false, 0), (11, false, 4), (11, false, 4)]
  | 0x34 => [(1, false, 0), (16, false, 6)]
  | 0x38 => [(8, false, 0), (8, false, 0), (32, false, 4), (48, false, 16), (48, false, 16), (48, false, 16)]
  | 0x40 => [(24, false, 0), (24, false, 0), (2, false, 0), (48, false, 16)]
  | 0x41 => [(2, false, 0), (48, false, 4), (48, false, 4)]
  | 0x42 => [(2, false, 0), (48, false, 4), (48, false, 4)]
  | 0x50 => [(11, false, 0), (15, false, 0), (7, false, 0), (24, false, 0), (8, false, 0)]
  | 0x51 => [(3, false, 0), (4, false, 0), (48, false, 0)]
  | 0x60 => [(8, false, 0), (8, false, 0), (2, false, 0)]
  | 0x61 => [(96, false, 0), (48, false, 0)]
  | 0x62 => [(96, false, 0), (48, false, 0)]
  | 0x70 => [(8, false, 0), (16, false, 0), (8, false, 0)]
  | 0x7E => [(2, false, 0)]
  | _ => []

/-- TICK and DIST come first in every type, with k = 16 (R440, R444). -/
def allFields (t : Nat) : List (Nat × Bool × Nat) := (48, false, 16) :: (48, false, 16) :: recordFields t

/-- The low n bits of a number, most significant first. -/
def bitsOf (n v : Nat) : List Bool := (List.range n).map (fun i => v / 2 ^ (n - 1 - i) % 2 == 1)

/-- Absolute coding of a field (R441). -/
def absBits (n : Nat) (v : Int) : List Bool := bitsOf n (v % (2 : Int) ^ n).toNat

def zigzag (d : Int) : Nat := if 0 ≤ d then (2 * d).toNat else (-2 * d - 1).toNat

/-- Order-k Exp-Golomb code of a zigzag value (R442). -/
def golomb (k z : Nat) : List Bool :=
  let x := z + 2 ^ k
  let n := Nat.log2 x + 1
  List.replicate (n - k - 1) false ++ bitsOf n x

def fieldBits : List (Nat × Bool × Nat) → Option (List Int) → List Int → List Bool
  | f :: fs, base, v :: vs =>
    (match base with
      | some (b :: _) => golomb f.2.2 (zigzag (v - b))
      | _ => absBits f.1 v) ++ fieldBits fs (base.map List.tail) vs
  | _, _, _ => []

/-- Bits of a word payload, each word from bit 47 (R443). -/
def wordBits (ws : List Word) : List Bool := ws.flatMap (fun w => bitsOf 48 w.toNat)

/-- Bits of a byte payload, each byte from bit 7 (R443). -/
def byteBits (bs : List Byte) : List Bool := bs.flatMap (fun b => bitsOf 8 b.toNat)

def bitsNat (bs : List Bool) : Nat := bs.foldl (fun a b => 2 * a + flag b) 0

/-- Words of a bit string from bit 47 downward, zero-padded (R438). -/
def packBits (bs : List Bool) : List Word :=
  (chunksOf 48 (ceilDiv bs.length 48) bs).map (fun c => word (bitsNat c * 2 ^ (48 - c.length)))

/-- What follows a record's fields: bits that continue, or words from the next word boundary on (the HEM blocks). -/
inductive Tail where
  | bits (b : List Bool)
  | aligned (ws : List Word)
  deriving DecidableEq, Repr

/-- The words of a record with its head (R438, R440-R443). -/
def recordWords (t tq commit : Nat) (base : Option (List Int)) (vals : List Int) (tail : Tail) : List Word :=
  let fs := fieldBits (allFields t) base vals
  let mk (len : Nat) : List Bool := bitsOf 8 t ++ bitsOf 10 len ++ bitsOf 2 tq ++ bitsOf 1 commit ++ bitsOf 3 0
  match tail with
  | .bits b =>
    let n := ceilDiv (24 + fs.length + b.length) 48
    packBits (mk n ++ fs ++ b)
  | .aligned ws =>
    let n := ceilDiv (24 + fs.length) 48 + ws.length
    packBits (mk n ++ fs) ++ ws

-- Streams and segments (R427-R432)

def Dev.stream (d : Dev) (main : Bool) : Stream := if main then d.jrn.main else d.jrn.tamper

def modStream (main : Bool) (f : Stream → Stream) (d : Dev) : Dev :=
  if main then { d with jrn := { d.jrn with main := f d.jrn.main } } else { d with jrn := { d.jrn with tamper := f d.jrn.tamper } }

/-- Physical indexes in use: closed unfolded segments, the open ones, and those retired (R631). -/
def indexUsed (d : Dev) (i : Nat) : Bool :=
  d.jrn.segments.any (fun s => s.index == i) || (d.jrn.main.cur.map (fun s => s.index == i)).getD false
    || (d.jrn.tamper.cur.map (fun s => s.index == i)).getD false || d.jrn.retired.contains i

def freeIndex (d : Dev) (lo n : Nat) : Option Nat := ((List.range n).map (· + lo)).find? (fun i => !indexUsed d i)

/-- The next segment of a stream: a tamper one, or a general one, or failing that an emergency one (R454). -/
def nextIndex (d : Dev) (main : Bool) : Option Nat :=
  if main then (freeIndex d 72 440).orElse (fun _ => freeIndex d 24 48) else freeIndex d 0 24

def segmentKind (i : Nat) : Nat := if i < 24 then 3 else if i < 72 then 2 else 1

/-- The journal key in recorder slot 0xF00 (R310); a segment opened without it carries a zero HEADER_MAC (R494). -/
def journalKey (d : Dev) : Option (List Byte) :=
  (d.keys.slots.find? (fun s => s.tenant == 1 && s.index == 0xF00)).bind (slotMaterial d)

/-- Header words G0-G7 (R429, R430). -/
def segmentHeader (d : Dev) (main : Bool) (i ord : Nat) : List Word :=
  let st := d.stream main
  let g := [mkWord [(47, 40, 1), (39, 32, if main then 1 else 2), (31, 24, segmentKind i), (23, 16, d.lifecycle.code),
      (15, 14, d.time.quality.code), (8, 0, i)],
    word ord, st.nextSeq, d.time.tick, mkWord [(47, 24, d.pat.gen)], d.shadow 2]
  g ++ match journalKey d with
    | some k => bytesWords ((cmac k (tagKV4856J 0x48 ++ wordsBytes g ++ wordsBytes st.prevTrailer)).take 12)
    | none => [0, 0]
where
  tagKV4856J (b : Nat) : List Byte := ascii [0x4B, 0x56, 0x34, 0x38, 0x35, 0x36, 0x4A, b]

/-- Trailer of a segment (R431). -/
def segmentTrailer (header body prev : List Word) : List Word :=
  bytesWords (sha384 (wordsBytes (header ++ fitW 752 body ++ prev)))

/-- General-segment fill of the main stream: neither free nor folded (R454). -/
def mainFill (d : Dev) : Nat :=
  ((List.range 440).filter (fun i => indexUsed d (i + 72) && !d.jrn.retired.contains (i + 72))).length

/-- 75 % pressure: the attention on both ports and the alert, once per crossing (R454). -/
def checkPressure (d : Dev) : Dev :=
  if 330 ≤ mainFill d then
    if d.jrn.pressure then d
    else alertBit Alert.pressure (attnBoth Attn.pressure { d with jrn := { d.jrn with pressure := true } })
  else { d with jrn := { d.jrn with pressure := false } }

/-- Closes the open segment of a stream (R428, R431); a tamper segment and every 64th main one leave a hem due (R433). -/
def closeSegment (main : Bool) (d : Dev) : Dev :=
  match (d.stream main).cur with
  | none => d
  | some o =>
    let t := segmentTrailer o.header o.body (d.stream main).prevTrailer
    let seg : Segment := { main := main, index := o.index, ordinal := o.ordinal, openTick := o.openTick, header := o.header,
                           body := fitW 752 o.body, trailer := t, hasTamper := o.hasTamper, hasHem := o.hasHem }
    modStream main (fun st => { st with cur := none, prevTrailer := t })
      { d with jrn := { d.jrn with
        segments := d.jrn.segments ++ [seg], hemDeferred := d.jrn.hemDeferred || !main || o.ordinal % 64 == 63 } }

/-- Opens the next segment of a stream when one can be had. -/
def openSegment (main : Bool) (d : Dev) : Dev :=
  match (d.stream main).cur, nextIndex d main with
  | some _, _ => d
  | none, none => d
  | none, some i =>
    let ord := (d.stream main).nextOrdinal
    let o : OpenSegment := { index := i, ordinal := ord, openTick := d.now, header := segmentHeader d main i ord }
    checkPressure (modStream main (fun st => { st with cur := some o, nextOrdinal := ord + 1 }) d)

-- Folding (R461, R462)

/-- A live export names the segment. -/
def exportNames (d : Dev) (s : Segment) : Bool :=
  d.sched.longs.any (fun l => !l.state.final && (match l.data with
    | .exportOf x => x.main == s.main && decide (x.first ≤ s.ordinal) && decide (s.ordinal ≤ x.last)
    | _ => false))

def newestHem (d : Dev) : Nat := ((d.jrn.segments.filter (fun s => s.main && s.hasHem)).map (·.ordinal)).foldl max 0

/-- The retention horizon in ticks (P13 [47:38], in days). -/
def retentionTicks (d : Dev) : Nat := d.cfg 13 47 38 * 353894400

def canFold (d : Dev) (s : Segment) : Bool :=
  s.main && s.exported && (d.jrn.receipted.map (fun r => decide (s.ordinal ≤ r))).getD false
    && decide (s.openTick + retentionTicks d < d.now) && !s.hasTamper
    && !(s.hasHem && (s.ordinal == newestHem d) && !((d.jrn.main.cur.map (·.hasHem)).getD false)) && !exportNames d s

def stubUnits (d : Dev) : Nat := (d.jrn.stubs.map (fun s => if s.ordinal == s.lastOrdinal then 1 else 2)).foldl (· + ·) 0

/-- The oldest run of at least 16 consecutive receipted stubs: its position and length, from the stubs in ordinal order (R462). -/
def stubRun (receipted : Nat) : List Stub → Nat → Nat → Nat → Option (Nat × Nat)
  | [], start, len, _ => if 16 ≤ len then some (start, len) else none
  | s :: ss, start, len, next =>
    if s.lastOrdinal ≤ receipted ∧ len ≠ 0 ∧ s.ordinal = next then stubRun receipted ss start (len + 1) (s.lastOrdinal + 1)
    else if 16 ≤ len then some (start, len)
    else if s.lastOrdinal ≤ receipted then stubRun receipted ss (start + len) 1 (s.lastOrdinal + 1)
    else stubRun receipted ss (start + len + 1) 0 0

def mergeStubs (d : Dev) : Dev :=
  if stubUnits d < 600 then d
  else
    match stubRun (d.jrn.receipted.getD 0) d.jrn.stubs 0 0 0 with
    | none => d
    | some (i, n) =>
      let run := slice d.jrn.stubs i n
      let a := run.headD {}
      let z := run.getLastD {}
      let count := z.lastOrdinal + 1 - a.ordinal
      let lastHead := if z.ordinal == z.lastOrdinal then z.words.take 8 else slice z.words 8 8
      let lastTrailer := if z.ordinal == z.lastOrdinal then slice z.words 8 8 else slice z.words 16 8
      let span : Stub := { ordinal := a.ordinal, lastOrdinal := z.lastOrdinal
                           words := fitW 32 (a.words.take 8 ++ lastHead ++ lastTrailer ++ [word count]) }
      { d with jrn := { d.jrn with stubs := d.jrn.stubs.take i ++ [span] ++ d.jrn.stubs.drop (i + n) } }

/-- Folds one segment: its stub is written and the segment freed. -/
def foldSegment (s : Segment) (d : Dev) : Dev :=
  mergeStubs <| logAt Core.sec 87 1 (word s.ordinal) false { d with jrn := { d.jrn with
    segments := d.jrn.segments.erase s
    stubs := d.jrn.stubs ++ [{ ordinal := s.ordinal, lastOrdinal := s.ordinal, words := s.header ++ s.trailer }] } }

-- Hems (R433-R437)

/-- Ordinal of the last closed segment of a stream. -/
def lastClosed (d : Dev) (main : Bool) : Word :=
  let st := d.stream main
  let n := if st.cur.isSome then st.nextOrdinal - 1 else st.nextOrdinal
  if n = 0 then BitVec.allOnes 48 else word (n - 1)

/-- The hem block over the last closed segments (R435). -/
def hemBlock (d : Dev) : List Word :=
  [mkWord [(47, 40, 1)]] ++ d.serial ++ [d.time.tick, lastClosed d true, d.jrn.main.nextSeq, lastClosed d false,
    d.jrn.tamper.nextSeq] ++ fitW 8 d.jrn.main.prevTrailer ++ fitW 8 d.jrn.tamper.prevTrailer

/-- Body words of the open segment with uncommitted words taken as zero (R437). -/
def committedBody (d : Dev) (main : Bool) (o : OpenSegment) : List Word :=
  match d.nvm.writes.findSome? (fun w => match w.effect with
      | .record x => if x.main == main && !x.done then some x.position else none
      | _ => none) with
  | some p => o.body.take p
  | none => o.body

def provisional (d : Dev) (main : Bool) : Word × List Word :=
  let st := d.stream main
  match st.cur with
  | some o => (word o.ordinal, segmentTrailer o.header (committedBody d main o) st.prevTrailer)
  | none => (lastClosed d main, st.prevTrailer)

/-- The provisional hem block and the journal head (R437). -/
def headBlock (d : Dev) : List Word :=
  let m := provisional d true
  let t := provisional d false
  [mkWord [(47, 40, 1)]] ++ d.serial ++ [d.time.tick, m.1, d.jrn.main.nextSeq, t.1, d.jrn.tamper.nextSeq]
    ++ fitW 8 m.2 ++ fitW 8 t.2

def tagJ (b : Nat) : List Byte := ascii [0x4B, 0x56, 0x34, 0x38, 0x35, 0x36, 0x4A, b]

def journalHead (d : Dev) : List Byte := sha384 (tagJ 0x44 ++ wordsBytes (headBlock d))

def hemHybrid (d : Dev) : Bool := d.cfg 13 35 35 == 1

/-- Hem block and signatures (R435), and the device after their random draws. -/
def signedHem (d : Dev) (k : DeviceKey) : List Word × Dev :=
  let b := hemBlock d
  let d := logAt Core.sec 86 (lastClosed d true) (lastClosed d false) false d
  let msg := ascii [0x4B, 0x56, 0x34, 0x38, 0x35, 0x36, 0x48, 0x4D] ++ wordsBytes b
  let (s1, d) := makeSignature 2 k.ecPrivate (sha384 msg) 0 d
  let s1 := fitW 16 (bytesWords s1)
  if hemHybrid d then
    let (s2, d) := makeSignature 9 k.pqPrivate msg 0 d
    (b ++ s1 ++ fitW 552 (bytesWords s2), d)
  else (b ++ s1, d)

/-- An engine signs the hem (R436), also when both are at work: its program is the next (log 54). A throttled one starts no program
(R54). -/
def canSignHem (d : Dev) : Bool := anyEngine d && !d.power.throttle && d.sym.randomOk

/-- TICK and DIST of a record that begins now (R15, R426). -/
def stamp (d : Dev) (vals : List Int) : List Int := (d.now : Int) :: (d.distance.toNat : Int) :: vals

/-- The fields and blocks of a hem now, and the device that has signed it; none while no key or engine can (R436). -/
def hemOf (d : Dev) : Option (List Int × Tail × Dev) :=
  match d.att.key, canSignHem d with
  | some k, true =>
    let (b, d) := signedHem d k
    some (stamp d [(flag (hemHybrid d) : Int)], .aligned b, { d with jrn := { d.jrn with hemDeferred := false } })
  | _, _ => none

def deferHem (d : Dev) : Dev := { d with jrn := { d.jrn with hemDeferred := true } }

-- Appends (R425-R428, R445)

def journalOpen (d : Dev) : Bool := d.jrn.created && !d.jrn.readOnly

/-- A record of an open two-phase append in this stream completes both phases before another begins (R447, R463). -/
def commitWord (x : OpenRecord) (d : Dev) : Dev :=
  modStream x.main (fun st => match st.cur with
    | some o => { st with cur := some { o with
        body := modAt o.body x.position (fun w => w ||| 1#48 <<< 27)
        bases := (x.rtype, x.fields) :: o.bases.filter (fun b => b.1 != x.rtype) } }
    | none => st) d

def finishOpenRecord (main : Bool) (d : Dev) : Dev :=
  match d.nvm.writes.findSome? (fun w => match w.effect with
      | .record x => if x.main == main && !x.done then some x else none
      | _ => none) with
  | none => d
  | some x =>
    let d := commitWord x d
    { d with nvm := { d.nvm with writes := d.nvm.writes.map (fun w => match w.effect with
        | .record y => if y == x then { w with effect := .record { y with done := true } } else w
        | _ => w) } }

/-- Places a record in the open segment when it fits: its position, and the device with the sequence number taken. -/
def placeRecord (main : Bool) (t tq commit : Nat) (vals : List Int) (tail : Tail) (d : Dev) : Option (Nat × Dev) :=
  match (d.stream main).cur with
  | none => none
  | some o =>
    let ws := recordWords t tq commit ((o.bases.find? (fun b => b.1 == t)).map (·.2)) vals tail
    if o.body.length + ws.length ≤ 752 then
      let bases := if commit = 1 then (t, vals) :: o.bases.filter (fun b => b.1 != t) else o.bases
      some (o.body.length, modStream main (fun st => { st with
        nextSeq := st.nextSeq + 1
        cur := some { o with body := o.body ++ ws, bases := bases, hasTamper := o.hasTamper || (t / 16 == 1)
                             hasHem := o.hasHem || t == 0x7E } })
        { d with jrn := { d.jrn with
          maxTick := max d.jrn.maxTick (vals.getD 0 0).toNat, maxDist := max d.jrn.maxDist (vals.getD 1 0).toNat } })
    else none

/-- A committed record's triggers; an open record fires at its commit. -/
def afterCommit (from_ : Option AppletRef) (main : Bool) (t : Nat) (seq : Word) (vals : List Int) (d : Dev) : Dev :=
  let v (i : Nat) : Word := intWord (vals.getD i 0)
  let d := journalTriggers from_ t main seq (v 0) (v 1) d
  if t = 0x20 then
    let a := ((vals.getD 3 0).toNat, (vals.getD 0 0).toNat)
    if vals.getD 2 0 = 0 then { d with jrn := { d.jrn with driver := some a } }
    else { d with jrn := { d.jrn with codriver := some a } }
  else d

/-- How a stream takes one more record: into its open segment; else that segment closes, eligible segments fold, the next one
opens, and a due hem and the FOLD records follow first. `fuel` bounds the records that such a close brings with it. -/
def writeRecord : Nat → Bool → Nat → Nat → Nat → List Int → Tail → Dev → Option (Nat × Dev)
  | 0, _, _, _, _, _, _, _ => none
  | n + 1, main, t, tq, commit, vals, tail, d =>
    match placeRecord main t tq commit vals tail d with
    | some x => some x
    | none =>
      let d := closeSegment main d
      let folds := if main then d.jrn.segments.filter (canFold d) else []
      let d := openSegment main (folds.foldl (fun d s => foldSegment s d) d)
      if (d.stream main).cur.isNone then none
      else
        let d := folds.foldl (fun d s =>
          ((writeRecord n (!d.jrn.sealed) 0x42 d.time.quality.code 1 (stamp d [1, (s.ordinal : Int), (s.ordinal : Int)]) (.bits []) d).map
            (·.2)).getD d) d
        let d :=
          match d.jrn.hemDeferred, hemOf d with
          | true, some (v, b, x) =>
            ((writeRecord n (!x.jrn.sealed) 0x7E x.time.quality.code 1 v b x).map (·.2)).getD (deferHem x)
          | _, _ => d
        match placeRecord main t tq commit vals tail d with
        | some x => some x
        | none => writeRecord n main t tq commit vals tail d

-- Summaries (R454-R456)

/-- SUB of a summarised record. -/
def summarySub (t : Nat) (vals : List Int) : Nat :=
  if t = 0x20 ∨ t = 0x22 then (vals.getD 2 0 * 4 + vals.getD 3 0).toNat else if t = 0x10 then (vals.getD 2 0).toNat else 0

/-- Summed duration in ticks: the interval of a MANUAL entry or of a POWER interruption, 0 for the rest (log 20). -/
def summaryTicks (t : Nat) (vals : List Int) : Nat :=
  if t = 0x22 then (vals.getD 5 0 - vals.getD 4 0).toNat else if t = 0x31 then (vals.getD 0 0 - vals.getD 2 0).toNat else 0

def summarise (t : Nat) (vals : List Int) (d : Dev) : Dev :=
  let sub := summarySub t vals
  let tick := (vals.getD 0 0).toNat
  let l := d.jrn.summary
  let put (s : Summary) : Summary :=
    { s with count := s.count + 1, last := tick, total := s.total + summaryTicks t vals }
  let l := if l.any (fun s => s.rtype == t && s.sub == sub) then modWhere (fun s => s.rtype == t && s.sub == sub) put l
    else (l ++ [put { rtype := t, sub := sub, first := tick }]).mergeSort
      (fun a b => decide (a.rtype * 256 + a.sub ≤ b.rtype * 256 + b.sub))
  { d with jrn := { d.jrn with summary := l } }

/-- Room for another main record without summarising. -/
def mainHasRoom (d : Dev) : Bool :=
  (d.jrn.main.cur.map (fun o => decide (o.body.length + 40 ≤ 752))).getD false || (nextIndex d true).isSome
    || d.jrn.segments.any (canFold d)

/-- SUMMARY_FLUSH (R456): when space has reappeared, one SUMMARY record per entry in ascending order; each entry clears with its
record. After the seal they go to the tamper stream, as every record does (R465). -/
def flushSummary (d : Dev) : Dev :=
  if d.jrn.summary.isEmpty || !(d.jrn.sealed || mainHasRoom d) then d
  else
    d.jrn.summary.foldl (fun d s =>
      match writeRecord 8 (!d.jrn.sealed) 0x38 d.time.quality.code 1 [(d.now : Int), (d.distance.toNat : Int), (s.rtype : Int),
          (s.sub : Int), (s.count : Int), (s.first : Int), (s.last : Int), (s.total : Int)] (.bits []) d with
      | some (_, d) => { d with jrn := { d.jrn with summary := d.jrn.summary.erase s } }
      | none => d) d

/-- The tamper stream takes this record: it fits in the open segment or another can be opened. -/
def tamperTakes (t tq commit : Nat) (vals : List Int) (tail : Tail) (d : Dev) : Bool :=
  (nextIndex d false).isSome || (placeRecord false t tq commit vals tail d).isSome

/-- The stream a record goes to: the tamper class and, after the seal, everything, to the tamper stream (R427, R641); tamper
records to the main stream when no tamper segment can take them (R454). -/
def streamOf (t tq commit : Nat) (vals : List Int) (tail : Tail) (d : Dev) : Bool :=
  !d.jrn.sealed && !(t / 16 == 1 && tamperTakes t tq commit vals tail d)

/-- What an append came to. -/
inductive Appended where
  | written (main : Bool) (position : Nat) (seq : Word)
  | summarised
  | closed
  deriving DecidableEq, Repr

/-- Appends a record with its TICK, DIST and time quality; `commit` 0 leaves phase 2 to its NVM commit (R445). A hem that finds no room
stays due: no class of R454 summarises it (DESIGN CHOICE, log 92). -/
def appendAt (t tq commit : Nat) (vals : List Int) (tail : Tail) (d : Dev) : Appended × Dev :=
  if !journalOpen d then (.closed, d)
  else
    let d := flushSummary d
    let main := streamOf t tq commit vals tail d
    let d := finishOpenRecord main d
    match writeRecord 8 main t tq commit vals tail d with
    | some (pos, d) => (.written main pos ((d.stream main).nextSeq - 1), d)
    | none =>
      if t = 0x7E then (.closed, deferHem d) else (.summarised, summarise t vals d)

/-- A record of SEC's own waits, with its stamp, until SEC may write NVM (R46, R158). -/
def deferRecord (t : Nat) (vals : List Int) (d : Dev) : Dev :=
  { d with jrn := { d.jrn with deferred := d.jrn.deferred ++ [{ rtype := t, tq := d.time.quality.code, vals := vals }] } }

/-- A whole record with its stamp goes into the journal; whether it was written. -/
def journalPut (t tq : Nat) (vals : List Int) (tail : Tail) (d : Dev) : Bool × Dev :=
  match appendAt t tq 1 vals tail d with
  | (.written main _ seq, d) => (true, afterCommit none main t seq vals d)
  | (_, d) => (false, d)

/-- A record that SEC itself appends, whole (R14, R15), and whether the journal takes it; under PF_N no new write starts (R46): the
record waits, a hem is deferred. -/
def secAppend (t : Nat) (vals : List Int) (tail : Tail) (d : Dev) : Bool × Dev :=
  if d.power.pfn && journalOpen d then
    match tail with
    | .bits _ => (true, deferRecord t vals d)
    | .aligned _ => (false, deferHem d)
  else journalPut t d.time.quality.code vals tail d

def secRecordAt (t : Nat) (vals : List Int) (tail : Tail) (d : Dev) : Dev := (secAppend t vals tail d).2

/-- Records that waited for SEC, oldest first (R50, R158). -/
def flushDeferred (d : Dev) : Dev :=
  d.jrn.deferred.foldl (fun d x => (journalPut x.rtype x.tq (if x.unstamped then stamp d x.vals else x.vals) (.bits []) d).2) { d with jrn := { d.jrn with deferred := [] } }

def secRecord (t : Nat) (vals : List Nat) (d : Dev) : Dev :=
  secRecordAt t (stamp d (vals.map (fun (n : Nat) => (n : Int)))) (.bits []) d

/-- FW_EVENT (R444). -/
def fwEvent (comp event arg : Nat) (d : Dev) : Dev := secRecord 0x51 [comp, event, arg] d

/-- FW_EVENT records that waited for SEC. -/
def flushOwed (d : Dev) : Dev :=
  d.fw.owed.foldl (fun d x => fwEvent x.1 x.2.1 x.2.2 d) { d with fw := { d.fw with owed := [] } }

/-- LIFECYCLE record (R122). -/
def lifecycleRecord (a b : Lifecycle) (phase : Nat) (d : Dev) : Dev := secRecord 0x60 [a.code, b.code, phase] d

/-- FENCE record and alert (R375, R625). -/
def fenceRecord (unit cause : Nat) (d : Dev) : Dev := secRecord 0x11 [unit, cause] d

/-- Closes the open segment of each stream at the end of an entry into RETURNED or SCORCHED; the journal is then read-only, and this
close leaves no hem due (R122, R433). -/
def closeJournal (d : Dev) : Dev :=
  let x := closeSegment false (closeSegment true d)
  { x with jrn := { x.jrn with readOnly := true, hemDeferred := d.jrn.hemDeferred } }

/-- A hem now, or deferred when no key or engine can sign it (R433, R436). -/
def writeHem (d : Dev) : Dev :=
  match hemOf d with
  | some (v, b, x) => secRecordAt 0x7E v b x
  | none => deferHem d

/-- The hem that the close of a segment has left due (R433). -/
def writeDueHem (d : Dev) : Dev := if d.jrn.hemDeferred then writeHem d else d

/-- JOURNAL_FOLD (R461): eligible segments fold oldest first, with a FOLD record each; such a record may itself close a segment and
fold others. -/
def foldAll (d : Dev) : Dev :=
  (d.jrn.segments.filter (canFold d)).foldl
    (fun d s => if d.jrn.segments.contains s && canFold d s then secRecord 0x42 [1, s.ordinal, s.ordinal] (foldSegment s d) else d) d

end Sys2Proof.Machine
end

