-- ==== Sys2Proof/Machine/Keys.lean ====
section
/-! DEFINITION. Keys, slots and flacons (07_keys): derivation, handles, the key cache, flacon checks. -/
namespace Sys2Proof.Machine

-- Key types (R303)

/-- Material bytes of a key type (R303): those of 0x20 are the CRT form of R412. -/
def materialLen (kt : Nat) : Nat :=
  match kt with
  | 0x01 => 16
  | 0x02 => 24
  | 0x03 => 32
  | 0x10 => 32
  | 0x11 => 48
  | 0x12 => 32
  | 0x13 => 32
  | 0x20 => 1280
  | 0x21 => 64
  | _ => 0

def isAes (kt : Nat) : Bool := kt == 1 || kt == 2 || kt == 3

def slotType (kt : Nat) : Bool := isAes kt || kt == 0x10 || kt == 0x11 || kt == 0x12 || kt == 0x13

def knownType (kt : Nat) : Bool := slotType kt || kt == 0x20 || kt == 0x21

/-- Usage bits a key type permits (R303). -/
def permittedUsages (kt : Nat) : Nat :=
  if isAes kt then 0x3F
  else match kt with
    | 0x10 => 0xC0
    | 0x11 => 0xC0
    | 0x12 => 0x40
    | 0x13 => 0x80
    | 0x20 => 0x40
    | 0x21 => 0x80
    | _ => 0

def usagesOk (kt u : Nat) : Bool := u ||| permittedUsages kt == permittedUsages kt

def cacheCost (kt : Nat) : Nat := if kt == 0x11 then 2 else 1

def Usage.encrypt : Nat := 0
def Usage.decrypt : Nat := 1
def Usage.macGen : Nat := 2
def Usage.macVerify : Nat := 3
def Usage.keyWrap : Nat := 4
def Usage.keyUnwrap : Nat := 5
def Usage.sign : Nat := 6
def Usage.agree : Nat := 7

-- Derivation (R291-R296)

/-- The tenant's epoch in a generation. -/
def tenantEpoch (d : Dev) (gen : Nat) (t : Byte) : Nat := ((d.tenant gen t).map recEpoch).getD 0

/-- Flacon label (R294). -/
def flaconLabel (t : Byte) (epoch : Nat) : List Word :=
  [mkWord [(47, 40, 2), (39, 32, t.toNat), (15, 0, epoch)], 0, 0, mkWord [(47, 40, 1)], 0, 0, 0, 0]

/-- The tenant's flacon key of an epoch (R293), under its heart key. -/
def flaconKeyOf (d : Dev) (t : Byte) (epoch fepoch : Nat) : List Byte :=
  kdf (heartKeyOf d t epoch) (ascii (kvDash ++ [0x46, 0x4C, 0x41, 0x43, 0x4F, 0x4E])) (wordsBytes (flaconLabel t fepoch)) 256

/-- Output length in bits of a top-key derivation (R295). -/
def topBits (kt : Nat) : Nat :=
  match kt with
  | 0x01 => 128
  | 0x02 => 192
  | 0x10 => 320
  | 0x11 => 448
  | _ => 256

def topKeyOf (d : Dev) (t : Byte) (epoch : Nat) (desc : Word) (label : List Word) : List Byte :=
  let kt := fld desc 47 40
  scalarFrom kt (kdf (heartKeyOf d t epoch) (ascii (kvDash ++ [0x54, 0x4F, 0x50]))
    (wordBytes desc ++ wordsBytes (fitW 8 label)) (topBits kt))

/-- After an L2 restart no heart key is derived while its source stays confirmed (R505). -/
def heartBarred (d : Dev) : Bool := d.tamper.barred.any (fun s => (d.tamper.sources.getD s {}).confirmed)

/-- Any derivation or unwrap needs the derivation path, the heart key or the base key it comes from, and no bar (R165, R291, R336, R505). -/
def needHeart (t : Byte) (gen : Nat) (d : Dev) : Res Dev := do
  let e := tenantEpoch d gen t
  need (!heartBarred d) St.tamperHold
  need (((heartAt d t e).isSome || baseReachable d) && d.keys.derivationOk) St.internalFault
  .ok (touchHeart t e d)

/-- A refusal that comes after the heart key was used keeps that use (R292). -/
def afterHeart {α : Type} (t : Byte) (epoch : Nat) (x : Res α) : Res α := x.mapError (fun e => { e with heart := some (t, epoch) })

-- Descriptors (R296)

def descType (w : Word) : Nat := fld w 47 40
def descUsages (w : Word) : Nat := fld w 39 32
def descOk (w : Word) : Bool :=
  slotType (descType w) && usagesOk (descType w) (descUsages w) && onlyBits w [(47, 40), (39, 32), (24, 24)]

def mkDesc (kt usages : Nat) (rel : Bool) : Word := mkWord [(47, 40, kt), (39, 32, usages), (24, 24, flag rel)]

-- Slots and handles (R297-R302)

def slotAt (d : Dev) (t : Byte) (i : Nat) : Option Slot := d.keys.slots.find? (fun s => s.tenant == t && s.index == i)

def Slot.handle (s : Slot) : Word := handleOf s.tenant s.index s.gen

def Slot.ref (s : Slot) : SlotRef := { tenant := s.tenant, index := s.index, gen := s.gen }

/-- The handle checks of R302, in their order. -/
def checkHandle (t : Byte) (w : Word) (usage : Option Nat) (d : Dev) : Res Slot := do
  need (fld w 47 40 == t.toNat) St.policyRefused 5
  match slotAt d t (fld w 39 28) with
  | none => rej St.keyAbsent
  | some s =>
    need (!s.writing) St.keyAbsent
    need (s.gen == fld w 27 0) St.keyStale
    match usage with
    | some u => need (s.usages.getLsbD u) St.policyRefused 1
    | none => .ok ()
    .ok s

-- Flacon policy (R314)

/-- Steps 3 to 5 of R314 over header words F0-F5. -/
def policyTail (t : Byte) (gen : Nat) (f : List Word) (d : Dev) : Res Unit := do
  need ((wd f 1) == 0 || decide (d.now ≤ (wd f 1).toNat)) St.policyRefused 2
  let c := counterAt d.time.counters (fld (wd f 2) 43 32)
  need (!bitOf (wd f 2) 47 || (c.holder == t && decide (c.value.toNat ≤ (wd f 3).toNat))) St.policyRefused 3
  let lo := fld (wd f 4) 47 24
  let hi := fld (wd f 4) 23 0
  need (!bitOf (wd f 2) 46 || (decide (lo ≤ gen) && (hi == 0 || decide (gen ≤ hi)))) St.policyRefused 4

def liveEpoch (d : Dev) (t : Byte) : Nat := ((d.keys.epochs.find? (fun e => e.1 == t)).map (·.2)).getD 0

/-- Step 1 of R314. -/
def epochOk (d : Dev) (t : Byte) (e : Nat) : Bool := e == liveEpoch d t || e + 1 == liveEpoch d t

/-- Each time a job pins material that came from a flacon, its policy is checked again (R314). -/
def checkPinned (gen : Nat) (s : Slot) (d : Dev) : Res Unit :=
  match s.policy with
  | none => .ok ()
  | some f => do
    need (epochOk d s.tenant (fld (wd f 0) 15 0)) St.policyRefused 6
    policyTail s.tenant gen f d

-- The key cache (R306, R307)

def cacheHeld (d : Dev) (t : Byte) : Nat :=
  ((d.keys.slots.filter (fun s => s.tenant == t && (!isPersistent s.index || s.resident))).map (fun s => cacheCost s.ktype)).foldl (· + ·) 0
    + ((d.keys.staged.filter (fun x => x.tenant == t)).map (·.entries)).foldl (· + ·) 0

def cacheAll (d : Dev) : Nat :=
  ((d.keys.slots.filter (fun s => !isPersistent s.index || s.resident)).map (fun s => cacheCost s.ktype)).foldl (· + ·) 0
    + (d.keys.staged.map (·.entries)).foldl (· + ·) 0 + d.keys.zeroising + d.keys.fencedEntries

/-- The words of a command that name a handle, by its opcode's parameters. -/
def handleWords (r : Req) : List Word :=
  match r.opcode.toNat with
  | 0x0304 => if r.f 0 47 40 == 2 then [r.w 1] else []
  | 0x0311 => [r.w 0]
  | 0x0312 => [r.w 0]
  | 0x0314 => [r.w 0]
  | 0x0401 => [r.w 0]
  | 0x0402 => [r.w 0]
  | 0x0410 => [r.w 0]
  | 0x0601 => [r.w 0]
  | 0x0603 => [r.w 0]
  | 0x0710 => [r.w 3]
  | _ => []

/-- A queued command of the tenant names the slot. -/
def namedByQueue (d : Dev) (s : Slot) : Bool := d.cmds.any (fun r => r.tenant == s.tenant && (handleWords r).contains s.handle)

/-- An entry that leaves the cache while its persistent slot stays in the store. -/
def evict (s : Slot) : Slot := { s with resident := false, material := [] }

/-- Makes room for an entry within the tenant's key-cache quota, evicting its least recently used resident entries; at most
`fuel` evictions (R307). -/
def makeRoom : Nat → Byte → Nat → Nat → Dev → Option Dev
  | 0, t, cost, quota, d => if cacheHeld d t + cost ≤ quota then some d else none
  | n + 1, t, cost, quota, d =>
    if cacheHeld d t + cost ≤ quota then some d
    else
      match d.keys.slots.find? (fun s => s.tenant == t && s.resident && !namedByQueue d s) with
      | none => none
      | some s => makeRoom n t cost quota { d with keys := { d.keys with
          slots := modWhere (fun x => x == s) evict d.keys.slots
          zeroising := d.keys.zeroising + cacheCost s.ktype } }

/-- A cache entry for a tenant under its bound generation's quota, or QUOTA; BUSY_RETRY while entries above the quotas are not
yet free (R307, R563). -/
def needEntry (r : Req) (cost : Nat) (d : Dev) : Res Dev :=
  match makeRoom 512 r.tenant cost (quotaOf d r recCache) d with
  | none => rej St.quota
  | some d => if cacheAll d + cost ≤ 1984 then .ok d else rej St.busyRetry

/-- The slot becomes the most recently used one. -/
def touchSlot (s : Slot) (d : Dev) : Dev :=
  { d with keys := { d.keys with slots := d.keys.slots.filter (fun x => !(x.tenant == s.tenant && x.index == s.index)) ++ [s] } }

/-- Reaches a key through a handle: R302, policy (R314), residence: the first use loads the material from the store (R306, R334). -/
def useSlot (r : Req) (w : Word) (usage : Option Nat) (d : Dev) : Res (Slot × Dev) := do
  let s ← checkHandle r.tenant w usage d
  checkPinned r.gen s d
  if isPersistent s.index && !s.resident then
    let d ← needEntry r (cacheCost s.ktype) d
    match storedMaterial d s with
    | none => rej St.keyAbsent
    | some m =>
      let s := { s with resident := true, material := m }
      .ok (s, touchSlot s d)
  else .ok (s, touchSlot s d)

-- Generations (R298, R299, R301)

def nextGen (g : BitVec 28) : BitVec 28 := if g = BitVec.allOnes 28 then 1 else g + 1

def takeVolGen (d : Dev) : Nat × Dev := (d.keys.volGen.toNat, { d with keys := { d.keys with volGen := nextGen d.keys.volGen } })

/-- The persistent counter stays at 2^28 - 1 once it is there (R301). -/
def takePerGen (d : Dev) : Nat × Dev :=
  (d.keys.perGen.toNat, { d with keys := { d.keys with
    perGen := if d.keys.perGen = BitVec.allOnes 28 then d.keys.perGen else d.keys.perGen + 1 } })

/-- Takes a slot out; a cache entry it held is zeroised (R328). -/
def dropSlot (t : Byte) (i : Nat) (d : Dev) : Dev :=
  match slotAt d t i with
  | none => d
  | some s =>
    { d with keys := { d.keys with
      slots := d.keys.slots.filter (fun x => !(x.tenant == t && x.index == i))
      zeroising := d.keys.zeroising + (if !isPersistent i || s.resident then cacheCost s.ktype else 0) } }

/-- An erase of a slot: it takes the next generation of its counter (R298, R301). -/
def eraseSlot (t : Byte) (i : Nat) (d : Dev) : Dev :=
  let d := dropSlot t i d
  if isPersistent i then (takePerGen d).2 else (takeVolGen d).2

/-- Erases every slot that satisfies a condition. -/
def eraseSlots (c : Slot → Bool) (d : Dev) : Dev := (d.keys.slots.filter c).foldl (fun d s => eraseSlot s.tenant s.index d) d

/-- Lowest free volatile index of a tenant (R337). -/
def freeVolatile (d : Dev) (t : Byte) : Option Nat := (List.range 0xF00).find? (fun i => (slotAt d t i).isNone)

/-- The volatile index a command names: 0x000 is the lowest free one (R337). -/
def volatileTarget (r : Req) (i : Nat) (d : Dev) : Res Nat :=
  if i == 0 then
    match freeVolatile d r.tenant with
    | some j => .ok j
    | none => rej St.quota
  else .ok i

/-- Writes a volatile slot under the next generation (R298, R322, R330). -/
def writeVolatile (s : Slot) (d : Dev) : Word × Dev :=
  let (g, d) := takeVolGen (dropSlot s.tenant s.index d)
  let s := { s with gen := g }
  (s.handle, logAt Core.sec 82 s.handle 0 false { d with keys := { d.keys with slots := d.keys.slots ++ [s] } })

-- Flacons (R311-R314)

def flaconLen (f : List Word) : Nat := 8 + ceilDiv (fld (wd f 5) 15 0) 6 + 3

/-- The parameter errors of a header: a reserved key type, a reserved bit (R9, R10, R303, R311; DEDUCED, log 77). -/
def headerBits (f : List Word) : Bool :=
  knownType (fld (wd f 0) 31 24) && onlyBits (wd f 2) [(47, 46), (43, 32)] && onlyBits (wd f 5) [(41, 40), (15, 0)]

/-- Format, usages and length of a header (R303, R311, R318); F0 [47:40] is the format. -/
def headerOk (format : Nat) (f : List Word) : Bool :=
  let kt := fld (wd f 0) 31 24
  headerBits f && fld (wd f 0) 47 40 == format && usagesOk kt (fld (wd f 0) 23 16) && fld (wd f 5) 15 0 == materialLen kt

/-- Seals material: header F0-F5, an IV from the random source (R312, R313). -/
def sealFlacon (key : List Byte) (head : List Word) (material : List Byte) (d : Dev) : List Word × Dev :=
  let (iv, d) := drawBytes 12 d
  let e := gcmEnc key iv (wordsBytes (fitW 6 head)) material
  (fitW 6 head ++ bytesWords iv ++ bytesWords e.1 ++ fitW 3 (bytesWords (e.2.take 16)), d)

/-- Opens flacon words under a key: the material, or none for a tag failure or non-zero padding. -/
def openFlacon (key : List Byte) (f : List Word) : Option (List Byte) :=
  let m := fld (wd f 5) 15 0
  let n := ceilDiv m 6
  let ct := wordsBytes (slice f 8 n)
  let tag := wordsBytes (slice f (8 + n) 3)
  if (ct.drop m).all (· == 0) && (tag.drop 16).all (· == 0) then
    gcmDec key (wordsBytes (slice f 6 2)) (wordsBytes (f.take 6)) (ct.take m) (tag.take 16)
  else none

/-- Unwraps a flacon of the command's tenant (R314, R337): its material, and the device with the heart key in use. A staged
entry of the command is its material (R277). -/
def unwrapFlacon (r : Req) (f : List Word) (d : Dev) : Res (List Byte × Dev) := do
  param (fld (wd f 0) 39 32 == r.tenant.toNat && f.length == flaconLen f && headerBits f)
  let d ← needHeart r.tenant r.gen d
  let e := tenantEpoch d r.gen r.tenant
  afterHeart r.tenant e (do
    need (epochOk d r.tenant (fld (wd f 0) 15 0)) St.policyRefused 6
    need (headerOk 1 f) St.policyRefused 7
    let m := match d.keys.staged.find? (fun x => x.id == r.id) with
      | some x => if x.material.isEmpty then none else some x.material
      | none => openFlacon (flaconKeyOf d r.tenant e (fld (wd f 0) 15 0)) f
    match m with
    | none => rej St.policyRefused 7
    | some m =>
      policyTail r.tenant r.gen f d
      .ok (m, d))

/-- A slot filled from a flacon's header and material. -/
def slotFromFlacon (t : Byte) (i : Nat) (f : List Word) (m : List Byte) : Slot :=
  { tenant := t, index := i, ktype := fld (wd f 0) 31 24, usages := BitVec.ofNat 8 (fld (wd f 0) 23 16)
    streamRel := bitOf (wd f 5) 40, material := m
    descriptor := mkDesc (fld (wd f 0) 31 24) (fld (wd f 0) 23 16) (bitOf (wd f 5) 40)
    epoch := fld (wd f 0) 15 0, expiry := wd f 1, policy := some (f.take 6) }

/-- Scalars are in [1, n - 1] and the length matches the type (R318). -/
def materialOk (kt : Nat) (m : List Byte) : Bool :=
  m.length == materialLen kt &&
    (match kt with
     | 0x10 => p256.scalarOk (beNat m)
     | 0x11 => p384.scalarOk (beNat m)
     | _ => true)

/-- Generated material: random, or a random scalar (R316). -/
def generate (kt : Nat) (d : Dev) : List Byte × Dev :=
  let (b, d) := drawBytes (if kt == 0x21 then 64 else topBits kt / 8) d
  (scalarFrom kt b, d)

/-- A template's F0 and F5 as the device completes them (R337). -/
def template (f : List Word) (epoch m : Nat) : List Word :=
  [setFld (wd f 0) 15 0 epoch, wd f 1, wd f 2, wd f 3, wd f 4, setFld (wd f 5) 15 0 m]

-- Revocation (R326)

def refIs (x : SlotRef) (s : Slot) : Bool := x.tenant == s.tenant && x.index == s.index && x.gen == s.gen

/-- The slot a long operation has pinned. -/
def longPins (l : LongOp) (s : Slot) : Bool :=
  match l.data with
  | .exportOf x => refIs x.slot s
  | .stream x => refIs x.slot s
  | _ => false

/-- Jobs that have pinned a slot: lane jobs, programs and long operations. -/
def pinnedJobs (d : Dev) (s : Slot) : Nat :=
  (d.sym.lanes.filter (fun l => (l.job.map (fun j => refIs j.slot s && j.stream.isNone)).getD false)).length
    + (d.sym.waiting.filter (fun j => refIs j.slot s && j.stream.isNone)).length
    + (d.pk.engines.filter (fun e => (e.job.map (fun j => (j.slot.map (fun x => refIs x s)).getD false)).getD false)).length
    + (d.pk.waiting.filter (fun j => (j.slot.map (fun x => refIs x s)).getD false)).length
    + (d.sched.longs.filter (fun l => !l.state.final && longPins l s)).length

/-- An urgent erase: lane jobs stop with KEY_REVOKED, programs are marked and end so at their fixed end, long operations fail (R326). -/
def revoke (s : Slot) (d : Dev) : Dev :=
  let jobs := d.sym.lanes.filterMap (fun l => l.job.bind (fun j => if refIs j.slot s then some j else none))
    ++ d.sym.waiting.filter (fun j => refIs j.slot s)
  let d := { d with
    sym := { d.sym with
      waiting := d.sym.waiting.filter (fun j => !refIs j.slot s)
      lanes := d.sym.lanes.map (fun l => match l.job with
        | some j => if refIs j.slot s then { l with job := none } else l
        | none => l) }
    pk := { d.pk with
      waiting := d.pk.waiting.map (fun j => if (j.slot.map (fun x => refIs x s)).getD false then { j with revoked := true } else j)
      engines := d.pk.engines.map (fun e => match e.job with
        | some j => if (j.slot.map (fun x => refIs x s)).getD false then { e with job := some { j with revoked := true } } else e
        | none => e) } }
  let d := jobs.foldl (fun d j => refuseWith j.req St.keyRevoked 0 d) d
  finishWhere (fun l => longPins l s) .failed St.keyRevoked d

end Sys2Proof.Machine
end

