-- ==== Sys2Proof/Machine/KeyCommands.lean ====
section
/-! DEFINITION. Class 0x03: the commands over keys, slots and flacons (R337), FLACON_STAGE and CACHE_ZEROISE_END. -/
namespace Sys2Proof.Machine

-- Random material comes from the source itself; EC material comes from an engine's program (R316, R401)

/-- The programs that a key command starts. -/
def genPrograms (kt : Nat) : List Nat := if genProg kt == 0 then [] else [genProg kt]

/-- Generated material can be had: a healthy source, and for a program an engine and its slots (R398, R419, R420). -/
def needGenerate (r : Req) (kt : Nat) (d : Dev) : Res Unit :=
  if genProg kt == 0 then need d.sym.randomOk St.internalFault else needProg r (genProg kt) d

/-- A reply whose payload is a number of whole words. -/
def replyWords (d : Dev) (ws : List Word) : Res (Dev × Done) := okWords d ws

/-- KEY_DERIVE (R293, R296). -/
def execKeyDerive (r : Req) (s : State) : Out :=
  hostCmd 0x0301 r (fun _ => needTenant r) (fun d => do
    let i := r.f 0 39 28
    param (r.sized 10 && onlyBits (r.w 0) [(39, 28)] && !isPersistent i && descOk (r.w 1))
    let i ← volatileTarget r i d
    let kt := descType (r.w 1)
    let d ← needEntry r (cacheCost kt) (dropSlot r.tenant i d)
    let d ← needHeart r.tenant r.gen d
    let (h, d) := writeVolatile { tenant := r.tenant, index := i, ktype := kt, usages := BitVec.ofNat 8 (descUsages (r.w 1))
                                  streamRel := bitOf (r.w 1) 24, descriptor := r.w 1
                                  material := topKeyOf d r.tenant (tenantEpoch d r.gen r.tenant) (r.w 1) (r.words.drop 2) } d
    replyWords d [h]) s

/-- FLACON_LOAD (R314). -/
def execFlaconLoad (r : Req) (s : State) : Out :=
  hostCmd 0x0302 r (fun _ => needTenant r) (fun d => do
    let i := r.f 0 39 28
    let f := r.words.drop 1
    param (r.sizedMin 12 && onlyBits (r.w 0) [(39, 28)] && !isPersistent i && !((fld (wd f 0) 31 24) == 0x20 || (fld (wd f 0) 31 24) == 0x21))
    let i ← volatileTarget r i d
    let _ ← needEntry r (cacheCost (fld (wd f 0) 31 24)) (dropStaged r.id false (dropSlot r.tenant i d))
    let (m, d) ← unwrapFlacon r f d
    let sl := slotFromFlacon r.tenant i f m
    let d ← needEntry r (cacheCost sl.ktype) (dropStaged r.id false (dropSlot r.tenant i d))
    let (h, d) := writeVolatile sl d
    replyWords d [h]) s

/-- The template of FLACON_CREATE as the device completes it. -/
def createTemplate (r : Req) (d : Dev) : List Word := template (r.words.drop 1) (liveEpoch d r.tenant) (materialLen (r.f 1 31 24))

/-- FLACON_CREATE's resources and policy: the target slot, and the device with room for it and the heart key in use. -/
def createTarget (r : Req) (d : Dev) : Res (Nat × Dev) := do
  let i := r.f 0 39 28
  let load := bitOf (r.w 0) 0
  let i ← if load then volatileTarget r i d else .ok i
  let d ← if load then needEntry r (cacheCost (r.f 1 31 24)) (dropSlot r.tenant i d) else .ok d
  let d ← needHeart r.tenant r.gen d
  if load then policyTail r.tenant r.gen (createTemplate r d) d else .ok ()
  .ok (i, d)

/-- FLACON_CREATE once its material can be generated (R316): the flacon, and the slot when it is loaded too. -/
def createFinish (r : Req) (d : Dev) : Res (Dev × Done) := do
  let (i, d) ← createTarget r d
  let (m, d) := generate (r.f 1 31 24) d
  let (fl, d) := sealFlacon (flaconKeyOf d r.tenant (tenantEpoch d r.gen r.tenant) (liveEpoch d r.tenant)) (createTemplate r d) m d
  if bitOf (r.w 0) 0 then
    let (h, d) := writeVolatile (slotFromFlacon r.tenant i fl m) d
    replyWords d (h :: fl)
  else replyWords d (0 :: fl)

/-- FLACON_CREATE's checks at dispatch (R316, R318); EC material is generated by a program. -/
def createBody (r : Req) (d : Dev) : Res (Dev × Done) := do
  let i := r.f 0 39 28
  let load := bitOf (r.w 0) 0
  let kt := r.f 1 31 24
  param (r.sized 7 && onlyBits (r.w 0) [(39, 28), (0, 0)] && !isPersistent i && (load || i == 0))
  param (r.f 1 39 32 == r.tenant.toNat && headerOk 1 (createTemplate r d) && kt != 0x20 && !(load && kt == 0x21))
  needGenerate r kt d
  if genProg kt == 0 then createFinish r d
  else
    let _ ← createTarget r d
    launch r (genPrograms kt) none .generate d

/-- FLACON_IMPORT (R317, R318). -/
def execFlaconImport (r : Req) (s : State) : Out :=
  hostCmd 0x0304 r (fun _ => needTenant r) (fun d => do
    let mode := r.f 0 47 40
    let kt := r.f 2 31 24
    let m0 := materialLen kt
    let f := template (r.words.drop 2) (liveEpoch d r.tenant) m0
    param (r.sizedMin 9 && onlyBits (r.w 0) [(47, 40)] && (mode == 1 || mode == 2) && (mode != 1 || (r.enc && r.w 1 == 0)))
    param (r.f 2 39 32 == r.tenant.toNat && headerOk 1 f)
    let data := r.bytesFrom 8 (if mode == 1 then m0 else m0 + 8)
    param (decide (data.length ≤ r.len - 48) && decide (r.len - 48 ≤ 6 * ceilDiv data.length 6) &&
      ((r.bytesFrom 8 (r.len - 48)).drop data.length).all (· == 0) && (mode != 2 || m0 % 8 == 0))
    let (m, d) ← if mode == 1 then (.ok (data, d) : Res (List Byte × Dev)) else do
      let (k, d) ← useSlot r (r.w 1) (some Usage.keyUnwrap) d
      match kwUnwrap k.material data with
      | some m => .ok (m, d)
      | none => rej St.paramRange
    param (materialOk kt m)
    need d.sym.randomOk St.internalFault
    let d ← needHeart r.tenant r.gen d
    let (fl, d) := sealFlacon (flaconKeyOf d r.tenant (tenantEpoch d r.gen r.tenant) (liveEpoch d r.tenant)) f m d
    replyWords d fl) s

/-- A new flacon epoch of the tenant is being committed (DEDUCED, log 93). -/
def epochPending (d : Dev) (t : Byte) : Bool :=
  d.nvm.writes.any (fun w => match w.effect with
    | .epoch u _ => t == u
    | _ => false)

/-- FLACON_EPOCH_ADVANCE: the commit follows, after one of the tenant's that is under way (R319, R722). -/
def execFlaconEpochAdvance (r : Req) (s : State) : Out :=
  hostCmd 0x0307 r (fun _ => needTenant r) (fun d => do
    param (r.len == 0)
    need (liveEpoch d r.tenant != 0xFFFF) St.counterLimit
    if epochPending d r.tenant then .ok (d, .wait)
    else okLater { d with nvm := { d.nvm with
      writes := d.nvm.writes ++ [{ req := some r, effect := .epoch r.tenant (liveEpoch d r.tenant + 1) }] } }) s

/-- Persistent slots a tenant holds. -/
def persistentHeld (d : Dev) (c : Byte → Bool) : Nat := (d.keys.slots.filter (fun s => c s.tenant && isPersistent s.index)).length

/-- Commits a persistent slot in two phases: the new generation, then copy 0, then copy 1; the slot is empty until the write completes
(R308, R322, R323). -/
def startPersist (r : Req) (x : Slot) (d : Dev) : Dev :=
  let (g, d) := takePerGen (dropSlot x.tenant x.index d)
  let (x, d) := sealSlot { x with gen := g, writing := true } d
  logAt Core.sec 82 x.handle 0 false { d with
    keys := { d.keys with slots := d.keys.slots ++ [x] }
    nvm := { d.nvm with writes := d.nvm.writes ++ [{ req := some r, effect := .slot x }] } }

/-- Room for a persistent write: the generation counter, the tenant's quota, the store; never the journal key's slot (R301, R310). -/
def persistRoom (r : Req) (d : Dev) : Res Unit := do
  let i := r.f 0 39 28
  need (d.keys.perGen != BitVec.allOnes 28) St.counterLimit
  let fresh := (slotAt d r.tenant i).isNone
  need (!fresh || decide (persistentHeld d (· == r.tenant) < quotaOf d r recSlots)) St.quota
  need (!fresh || decide (persistentHeld d (fun _ => true) < 1008)) St.busyRetry
  need (!(r.tenant == 1 && i == 0xF00)) St.policyRefused 8
  need (baseReachable d) St.internalFault

/-- The slot that KEY_PERSIST of a descriptor writes, still without material. -/
def persistSlot (r : Req) (desc : Word) : Slot :=
  { tenant := r.tenant, index := r.f 0 39 28, ktype := descType desc, usages := BitVec.ofNat 8 (descUsages desc)
    streamRel := bitOf desc 24, descriptor := desc }

/-- KEY_PERSIST source 0x01 once its material can be generated (R309). -/
def persistFinish (r : Req) (d : Dev) : Res (Dev × Done) := do
  persistRoom r d
  let (m, d) := generate (descType (r.w 1)) d
  okLater (startPersist r { persistSlot r (r.w 1) with
    material := m, nonce := if bitOf (r.w 0) 0 then some { fixed := r.w 2 } else none } d)

/-- KEY_PERSIST's checks at dispatch (R308-R310, R615), and its effect but for a program's. A flacon that names a slot type is judged by
R314 before its usages. -/
def persistBody (r : Req) (d : Dev) : Res (Dev × Done) := do
  let src := r.f 0 47 40
  let nonce := bitOf (r.w 0) 0
  let f := r.words.drop 3
  param (onlyBits (r.w 0) [(47, 40), (39, 28), (0, 0)] && isPersistent (r.f 0 39 28) && (src == 1 || src == 2 || src == 3))
  param ((src == 1 && r.sized 3) || (src == 2 && r.sizedMin 14 && r.w 1 == 0) || (src == 3 && r.sized 11))
  let desc := if src == 2 then mkDesc (fld (wd f 0) 31 24) (fld (wd f 0) 23 16) (bitOf (wd f 5) 40) else r.w 1
  let kt := descType desc
  param ((if src == 2 then slotType kt && headerBits f else descOk desc) && (!nonce || (src == 1 && isAes kt)) && (nonce || r.w 2 == 0))
  param (!(r.tenant == 0 && r.f 0 39 28 == 0xFFF) || (kt == 3 && descUsages desc == 0x0C))
  persistRoom r d
  if src == 2 then
    let (m, d) ← unwrapFlacon r f d
    need (bitOf (wd f 5) 41) St.policyRefused 1
    okLater (startPersist r (slotFromFlacon r.tenant (r.f 0 39 28) f m) d)
  else if src == 3 then
    let d ← needHeart r.tenant r.gen d
    okLater (startPersist r { persistSlot r desc with material := topKeyOf d r.tenant (tenantEpoch d r.gen r.tenant) desc f } d)
  else
    needGenerate r kt d
    if genProg kt == 0 then persistFinish r d else launch r (genPrograms kt) none .generate d

/-- KEY_ERASE (R322, R326). -/
def execKeyErase (r : Req) (s : State) : Out :=
  hostCmd 0x0311 r (fun _ => needTenant r) (fun d => do
    param (r.sized 1)
    need (!(r.tenant == 1 && r.f 0 47 40 == 1 && r.f 0 39 28 == 0xF00)) St.policyRefused 8
    let x ← checkHandle r.tenant (r.w 0) none d
    let n := if r.urgent then pinnedJobs d x else 0
    let d := if r.urgent then revoke x d else d
    let d := logAt Core.sec 83 x.handle (word n) false (eraseSlot x.tenant x.index d)
    if isPersistent x.index then
      okLater { d with nvm := { d.nvm with writes := d.nvm.writes ++ [{ req := some r, effect := .erase x.tenant x.index n }] } }
    else replyWords d [word n]) s

/-- KEY_INFO; W2 names the cache state and the source flacon's epoch, W3 the next nonce value. -/
def execKeyInfo (r : Req) (s : State) : Out :=
  hostCmd 0x0312 r (fun _ => needTenant r) (fun d => do
    param (r.sized 1)
    let x ← checkHandle r.tenant (r.w 0) none d
    let st := if isPersistent x.index then (if x.resident then 1 else 3) else 2
    replyWords d [x.handle, x.descriptor, mkWord [(47, 40, st), (15, 0, x.epoch)],
      (x.nonce.map (fun n => word n.next)).getD 0, x.expiry]) s

/-- KEY_LIST. -/
def execKeyList (r : Req) (s : State) : Out :=
  hostCmd 0x0313 r (fun _ => needTenant r) (fun d => do
    param (r.sized 1 && onlyBits (r.w 0) [(0, 0)])
    let l := (d.keys.slots.filter (fun x => x.tenant == r.tenant && isPersistent x.index == bitOf (r.w 0) 0 && !x.writing)).mergeSort
      (fun a b => decide (a.index ≤ b.index))
    replyWords d (word l.length :: l.map Slot.handle)) s

/-- Bytes of a public key as KEY_PUBLIC gives it. -/
def publicLen (kt : Nat) : Nat := if kt == 0x10 then 64 else if kt == 0x11 then 96 else 32

/-- KEY_PUBLIC's checks at dispatch, for a key of type 0x10-0x13. -/
def publicBody (r : Req) (d : Dev) : Res (Dev × Done) := do
  param (r.sized 1)
  let (x, d) ← useSlot r (r.w 0) none d
  param (slotType x.ktype && !isAes x.ktype)
  needProg r (genProg x.ktype) d
  launch r (genPrograms x.ktype) (some x.ref) (.keyPublic x.ktype x.material) d

-- FLACON_REWRAP (R320, R338)

/-- Starts a long operation for an admitted command: its ACCEPTED reply (R262). -/
def startLong (r : Req) (kind total : Nat) (data : LongData) (extra : List Word) (d : Dev) (state : LongState := .running) :
    Res (Dev × Done) :=
  let (h, d) := addLong { kind := kind, tenant := r.tenant, state := state, total := total, gen := d.pat.gen, origin := r.origin
                          deadline := r.deadline, cmd := r.id, data := data } d
  .ok (d, .reply St.accepted (acceptedWord kind h :: extra) (6 * (1 + extra.length)))

/-- A chunk or result command's operation: it exists, is the tenant's and of the kind (R264), is not suspended, and runs. -/
def needLong (r : Req) (h : Nat) (kind : Nat) (d : Dev) : Res LongOp :=
  match longAt d (BitVec.ofNat 24 h) with
  | none => rej St.policyRefused
  | some l => do
    need (l.tenant == r.tenant) St.policyRefused
    param (l.kind == kind)
    need (!(l.state = .suspended)) St.suspended
    need (!(l.state = .cancelled)) St.cancelled
    .ok l

def longRunning (l : LongOp) : Bool := l.state = .running || l.state = .suspendPending || l.state = .cancelPending

/-- FLACON_REWRAP, long. -/
def execFlaconRewrap (r : Req) (s : State) : Out :=
  hostCmd 0x0305 r (fun _ => needTenant r) (fun d => do
    param (r.sized 2 && onlyBits (r.w 0) [(39, 32)])
    startLong r 2 0 (.rewrap (BitVec.ofNat 8 (r.f 0 39 32)) (r.w 1)) [] d) s

/-- Header of a rewrapped flacon: narrower usages, the earlier expiry, the current epoch (R320). -/
def rewrapHeader (f : List Word) (mask : Byte) (ceiling : Word) (epoch : Nat) : List Word :=
  let e := wd f 1
  let x := if ceiling == 0 then e else if e == 0 then ceiling else if e.toNat ≤ ceiling.toNat then e else ceiling
  [setFld (setFld (wd f 0) 15 0 epoch) 23 16 ((BitVec.ofNat 8 (fld (wd f 0) 23 16) &&& mask).toNat), x, wd f 2, wd f 3, wd f 4, wd f 5]

/-- One flacon of a chunk: its status, and its new form or nothing (R320, R338). -/
def rewrapOne (r : Req) (mask : Byte) (ceiling : Word) (f : List Word) (d : Dev) : (Byte × List Word) × Dev :=
  let e := liveEpoch d r.tenant
  match unwrapFlacon r f d with
  | .error x => ((x.status, []), keepHeart x d)
  | .ok (m, d) =>
    let (fl, d) := sealFlacon (flaconKeyOf d r.tenant (tenantEpoch d r.gen r.tenant) e) (rewrapHeader f mask ceiling e) m d
    ((St.ok, fl), d)

/-- The status of a flacon that a suspension point has left behind (DESIGN CHOICE, log 81). -/
def leftBehind (d : Dev) (h : BitVec 24) : Byte :=
  if (longAt d h).any (fun l => l.state = .suspended) then St.suspended else St.cancelled

/-- Takes n flacons off a chunk, each in turn and each a suspension point: their statuses and the output words (R338). -/
def rewrapAll (r : Req) (h : BitVec 24) (mask : Byte) (ceiling : Word) : Nat → List Word → Dev → List (Byte × List Word) × Dev
  | 0, _, d => ([], d)
  | n + 1, ws, d =>
    if !(longAt d h).any longRunning then
      (List.replicate (n + 1) (leftBehind d h, []), d)
    else
      let len := flaconLen ws
      let (out, d) := rewrapOne r mask ceiling (ws.take len) d
      let d := suspensionPoint h (modLong h (fun l => { l with units := l.units + 1 }) d)
      let (rest, d) := rewrapAll r h mask ceiling n (ws.drop len) d
      (out :: rest, d)

/-- FLACON_REWRAP_CHUNK (R338); the reply that ends the operation is its final one (R268). -/
def execFlaconRewrapChunk (r : Req) (s : State) : Out :=
  hostCmd 0x0306 r (fun _ => needTenant r) (fun d => do
    let n := r.f 0 47 40
    param (r.sizedMin 2 && onlyBits (r.w 0) [(47, 40), (24, 24), (23, 0)] && n != 0)
    let l ← needLong r (r.f 0 23 0) 2 d
    param (longRunning l)
    need d.sym.randomOk St.internalFault
    match l.data with
    | .rewrap mask ceiling =>
      let (outs, d) := rewrapAll r l.handle mask ceiling n (r.words.drop 1) d
      let ws := mkWord [(47, 40, n)] :: outs.map (fun o => mkWord [(47, 40, o.1.toNat), (15, 0, o.2.length)]) ++ outs.flatMap (·.2)
      match longAt d l.handle with
      | some m =>
        if bitOf (r.w 0) 24 && longRunning m then .ok (finishLong l.handle .done St.ok d, .final m.gen ws (6 * ws.length))
        else okWords d ws
      | none => okWords d ws
    | _ => rej St.paramRange) s

-- Run-ahead staging (R274-R277) and zeroisation (R328, R329)

/-- The flacon words a queued command carries, by its opcode. -/
def queuedFlacon (r : Req) : Option (List Word) :=
  match r.opcode.toNat with
  | 0x0302 => some (r.words.drop 1)
  | 0x0310 => if r.f 0 47 40 == 2 then some (r.words.drop 3) else none
  | 0x0601 => if r.w 0 == 0 then some (r.words.drop 2) else none
  | 0x0603 => if r.w 0 == 0 && r.f 1 15 0 != 0 then some (r.words.drop 12) else none
  | _ => none

/-- The command stands among the next four of its tenant. -/
def amongFour (r : Req) (d : Dev) : Bool := ((d.cmds.filter (fun x => x.tenant == r.tenant)).take 4).contains r

/-- FLACON_STAGE of a queued command: an entry while the tenant's quota has room, never by evicting another tenant's (R274); a
failure is kept for the dispatch, which judges the flacon again (R277). The slot index of trace point 21 is not stated (log 13). -/
def execFlaconStage (id : Nat) (s : State) : Out :=
  lift (fun d =>
    match d.cmds.find? (fun r => r.id == id) with
    | none => d
    | some r =>
      match queuedFlacon r with
      | none => d
      | some f0 =>
        let f := f0.take (flaconLen f0)
        let kt := fld (wd f 0) 31 24
        if amongFour r d && !d.keys.staged.any (fun x => x.id == id) && slotType kt
            && decide (cacheHeld d r.tenant + cacheCost kt ≤ quotaOf d r recCache) then
          match unwrapFlacon r f d with
          | .error x => keepHeart x d
          | .ok (m, d) => traceT Core.sch 21 r.tenant (word r.tenant.toNat) (word (Config.unstated 21 [id])) { d with keys := { d.keys with
              staged := d.keys.staged ++ [{ id := id, tenant := r.tenant, entries := cacheCost kt, material := m }] } }
        else d) s

/-- CACHE_ZEROISE_END: a read-back that passes frees the entry, one that fails fences it until the next start (R328, R329). -/
def execCacheZeroiseEnd (passed : Bool) (s : State) : Out :=
  lift (fun d =>
    if d.keys.zeroising = 0 then d
    else if passed then { d with keys := { d.keys with zeroising := d.keys.zeroising - 1 } }
    else raiseFault 2 { d with keys := { d.keys with zeroising := d.keys.zeroising - 1, fencedEntries := d.keys.fencedEntries + 1 } }) s

end Sys2Proof.Machine
end

