-- ==== Sys2Proof/Machine/Sched.lean ====
section
/-! DEFINITION. SCH's choice of the next job (R251) and the engine-time accounts (R243, R244). -/
namespace Sys2Proof.Machine

/-- Lane time is used up in the current window (R244), by the quota of the generation the work is bound to (R560). -/
def laneTimeUp (d : Dev) (gen : Nat) (t : Byte) : Bool :=
  match d.tenant gen t with
  | some x => decide (recLaneMs x * 1000 ≤ (statOf d t).laneUs)
  | none => false

def pkTimeUp (d : Dev) (gen : Nat) (t : Byte) : Bool :=
  match d.tenant gen t with
  | some x => decide (recPkMs x * 1000 ≤ (statOf d t).pkUs)
  | none => false

def oldest (rs : List Req) : Option Req :=
  rs.foldl (fun b r => match b with
    | none => some r
    | some x => if r.id < x.id then some r else some x) none

/-- The tenant after the last one served, cyclically among those with work (R251 step 3). -/
def nextTenant (last : Option Byte) (rs : List Req) : Nat :=
  let ts := rs.map (fun r => r.tenant.toNat)
  let low := ts.foldl min 255
  match last with
  | none => low
  | some t =>
    let up := ts.filter (fun x => t.toNat < x)
    if up.isEmpty then low else up.foldl min 255

/-- R251 over the ready work of one engine kind: band 0 oldest first; else bands by their shares of 8, 4 and 1 (log 23), urgent
commands before others (R249), tenants in turn, each tenant's oldest. -/
def pickReq (rs : List Req) (s : Sched) : Option Req × Sched :=
  match oldest (rs.filter (fun r => r.band == 0)) with
  | some r => (some r, s)
  | none =>
    let has (b : Nat) : Bool := rs.any (fun r => r.band == b)
    let left (b : Nat) : Bool := has b && decide (0 < s.shares.getD (b - 1) 0)
    if !(has 1 || has 2 || has 3) then (none, s)
    else
      let shares := if left 1 || left 2 || left 3 then s.shares else [8, 4, 1]
      let ok (b : Nat) : Bool := has b && decide (0 < shares.getD (b - 1) 0)
      let b := if ok 1 then 1 else if ok 2 then 2 else 3
      let inBand := rs.filter (fun r => r.band == b)
      let urgent := inBand.filter (fun r => r.urgent)
      let pool := if urgent.isEmpty then inBand else urgent
      let t := nextTenant (s.lastTenant.getD b none) pool
      (oldest (pool.filter (fun r => r.tenant.toNat == t)),
        { s with shares := modAt shares (b - 1) (· - 1), lastTenant := setAt s.lastTenant b (some (BitVec.ofNat 8 t)) })

end Sys2Proof.Machine
end

