-- ==== Sys2Proof/Machine/Tamper.lean ====
section
/-! DEFINITION. Tamper sources (11_tamper): levels, confirmation, latching, holds, and the class 0x0A commands. -/
namespace Sys2Proof.Machine

def Src.flash : Nat := 16
def Src.vddUnder : Nat := 20
def Src.glitch : Nat := 21
def Src.clock : Nat := 22
def Src.datapath : Nat := 26
def Src.drift : Nat := 27

/-- Event sources (R475, R477). -/
def isEvent (s : Nat) : Bool := s == 16 || s == 21 || s == 22 || s == 26 || s == 27

/-- TAMPER_DISABLE, which CLOCK, DATAPATH and FUSE_DRIFT ignore (R483, R484). -/
def srcDisabled (d : Dev) (s : Nat) : Bool := bitOf (d.shadow 0x0D) s && !(s == 22 || s == 26 || s == 27)

/-- TAMPER_MIN of a source (R168). -/
def srcMin (d : Dev) (s : Nat) : Nat :=
  if s < 24 then fld (d.shadow 0x0E) (2 * s + 1) (2 * s) else fld (d.shadow 0x0F) (2 * (s - 24) + 1) (2 * (s - 24))

/-- The pattern's level; in MANUFACTURE that of R485. -/
def srcPattern (d : Dev) (s : Nat) : Nat :=
  if d.lifecycle = .manufacture then (if s ≤ 16 ∨ s = 23 ∨ s = 24 ∨ s = 28 then 1 else 0)
  else fld (wd d.pat.image (32 + s)) 47 46

/-- Effective level of a confirmation (R481); L3 is executed as L2 in DEPARTED (R486) and, the transition being done, in
SCORCHED (log 21). -/
def srcLevel (d : Dev) (s : Nat) : Nat :=
  let l := max (srcPattern d s) (srcMin d s)
  if l == 3 && (d.lifecycle = .departed || d.lifecycle = .scorched) then 2 else l

/-- N of a source: 1 for an event source (R477). -/
def srcN (d : Dev) (s : Nat) : Nat := if isEvent s then 1 else fld (wd d.pat.image (32 + s)) 45 38

def modSrc (s : Nat) (f : SourceState → SourceState) (d : Dev) : Dev :=
  { d with tamper := { d.tamper with sources := modAt d.tamper.sources s f } }

/-- The last 64 confirmations that no journal took (R495, R510). -/
def keepConfirmation (x : Latch) (d : Dev) : Dev :=
  let l := d.mgmt.kept ++ [x]
  healthWrite 3 { d with mgmt := { d.mgmt with kept := l.drop (l.length - 64) } }

def countRecord (d : Dev) : Dev := { d with tamper := { d.tamper with recordsSince := min 4095 (d.tamper.recordsSince + 1) } }

/-- The TAMPER record of a confirmation (R444, R513), with its own tick and distance when it was latched (R426); kept in the
health store where the journal takes no record (R495), and with INTERNAL_FAULT when the record cannot be appended (R510). -/
def tamperRecord (x : Latch) (d : Dev) : Dev :=
  if !journalOpen d then keepConfirmation x d
  else
    let t : Int := if x.flags % 2 == 1 then x.tick else d.now
    let dist : Int := if x.flags % 2 == 1 then x.dist else d.distance.toNat
    let p := secAppend 0x10 [t, dist, (x.src : Int), (x.level : Int), x.value.toInt, (x.flags : Int)] (.bits []) d
    if p.1 then countRecord p.2 else keepConfirmation x (raiseFault 19 p.2)

/-- TAMPER_HOLD for the pattern's hold time from a tick; the later end stands (R487, R489). -/
def beginHold (start : Nat) (d : Dev) : Dev :=
  let e := start + ceilDiv (d.cfg 14 47 35 * 4096) 10
  { d with tamper := { d.tamper with holdEnd := max d.tamper.holdEnd e } }

/-- The actions of L1 that need no record: the wake from STANDBY (R52), attention, alert and hold (R487). -/
def signalTamper (d : Dev) : Dev :=
  let d := if d.power.state = .standby then { d with power := { d.power with state := .active } } else d
  let d := alertBit Alert.tamper (attnBoth Attn.tamper d)
  if d.lifecycle = .blank then d else beginHold d.now d

/-- FLASH withholds the output of every quantum and program in progress (R480); their ends have each retried. -/
def flashRetry (d : Dev) : Dev :=
  { d with
    sym := { d.sym with lanes := d.sym.lanes.map (fun l => { l with job := l.job.map (fun j => { j with withheld := true }) }) }
    pk := { d.pk with engines := d.pk.engines.map (fun e => { e with job := e.job.map (fun j => { j with withheld := true }) }) } }

/-- What a confirmation is answered with where SEC runs (R487, R497, R498). -/
def answer (x : Latch) (d : Dev) : Dev :=
  match d.tamper.response with
  | some l => { d with tamper := { d.tamper with
      response := some (max l x.level), waiting := d.tamper.waiting ++ [x], l3Latch := d.tamper.l3Latch || x.level == 3 } }
  | none =>
    if x.level = 0 then tamperRecord x d
    else if x.level = 1 then tamperRecord x (signalTamper d)
    else
      let d := signalTamper d
      { d with tamper := { d.tamper with response := some x.level, waiting := [x], l3Latch := d.tamper.l3Latch || x.level == 3 } }

/-- The active domain cannot take the event: HIBERNATE, BACKUP, shutdown, or the boot ROM before SEC runs (R158, R501). -/
def latchesOnly (d : Dev) : Bool := !d.boot.running

/-- The latch of a source keeps its first confirmation (R500). -/
def latchSource (x : Latch) (d : Dev) : Dev :=
  let rom := d.power.state = .active
  modSrc x.src (fun s => if s.latch.isSome then s else
    { s with latch := some { x with flags := x.flags - x.flags % 2 + 1 + (if rom then 4 else 0) } })
    { d with tamper := { d.tamper with l3Latch := d.tamper.l3Latch || x.level == 3 } }

/-- A confirmation is answered where SEC runs and latched where it does not (R487, R501). -/
def takeConfirmation (x : Latch) (d : Dev) : Dev := if latchesOnly d then latchSource x d else answer x d

/-- The source is watched in the present power state (R475, BACKUP's column): without VDD only the photodiodes, the temperatures, the
clock's stop detector, the meshes and the lid are. -/
def watched (d : Dev) (s : Nat) : Bool :=
  match d.power.state with
  | .off => false
  | .backup => decide (s < 16) || [17, 18, 22, 23, 24, 25].contains s
  | _ => true

/-- The VALUE of a sensed confirmation: a photodiode saturates, FLASH and LID have 1 alone (R513). -/
def sensedValue (s : Nat) (v : BitVec 24) : BitVec 24 :=
  if s < 16 then (if v.toNat ≤ 0x7FFFFF then v else 0x7FFFFF) else if s = 16 ∨ s = 25 then 1 else v

/-- A confirmed source (R476, R481, R499-R501); an event source clears at once, and its responded bit with it (R477, R499). BLANK
applies no response (R20); its management registers report it as ALERT_CAUSE.TAMPER at any level (DESIGN CHOICE, log 83). A VDD_UNDER
confirmation is held first, whatever runs (R479). -/
def confirmSource (s : Nat) (value : BitVec 24) (flags : Nat) (d : Dev) : Dev :=
  if srcDisabled d s then d
  else
    let lvl := srcLevel d s
    let old := srcState d s
    let raised := srcPattern d s < srcMin d s
    let x : Latch := { src := s, tick := d.now, dist := d.distance.toNat, value := value, level := lvl
                       flags := flags + (if raised then 2 else 0) }
    let d := modSrc s (fun t => { t with
      confirmed := !isEvent s, responded := t.responded && !isEvent s, level := lvl, value := value, count := srcN d s }) d
    let d := if s = 16 then flashRetry d else d
    if d.lifecycle = .blank then alertBit Alert.tamper d
    else if old.responded && !isEvent s then d
    else if s = 20 then { d with tamper := { d.tamper with underHold := some x } }
    else takeConfirmation x d

def tamperEvent (s value : Nat) (d : Dev) : Dev := confirmSource s (BitVec.ofNat 24 value) 0 d

/-- A sampled source that is watched and was clear is confirmed. -/
def senseAlarm (s : Nat) (value : BitVec 24) (d : Dev) : Dev :=
  if isEvent s || (srcState d s).confirmed || !watched d s then d else confirmSource s (sensedValue s value) 0 d

/-- TAMPER_CONFIRM: N consecutive alarm samples of a sampled source that was clear (R476). -/
def execTamperConfirm (src : Source) (value : BitVec 24) (s : State) : Out :=
  lift (fun d => senseAlarm src.val value d) s

/-- TAMPER_CLEAR: N consecutive clean samples; the responded bit and the heart-key bar go with it (R476, R499, R505). -/
def execTamperClear (src : Source) (s : State) : Out :=
  lift (fun d =>
    let d := modSrc src.val (fun t => { t with confirmed := false, responded := false, count := 0 }) d
    { d with tamper := { d.tamper with barred := d.tamper.barred.filter (· != src.val) } }) s

/-- TAMPER_EVENT of an event source (R477). -/
def execTamperEvent (src : Source) (value : BitVec 24) (s : State) : Out :=
  lift (fun d => if isEvent src.val && watched d src.val then confirmSource src.val (sensedValue src.val value) 0 d else d) s

/-- VDD_UNDER_HOLD_EXPIRY: after 64 ticks the confirmation is recorded and answered (R479). -/
def execVddUnderHoldExpiry (s : State) : Out :=
  lift (fun d =>
    match d.tamper.underHold with
    | some x => if x.tick + 64 ≤ d.now then takeConfirmation x { d with tamper := { d.tamper with underHold := none } } else d
    | none => d) s

/-- TAMPER_HOLD_END: the timed hold is over (R487, R490). -/
def execTamperHoldEnd (s : State) : Out :=
  lift (fun d => if d.tamper.holdEnd ≤ d.now then { d with tamper := { d.tamper with holdEnd := 0 } } else d) s

/-- Alarms of one tick in ascending source order (R496). -/
def insertAlarm (x : Source × BitVec 24) : List (Source × BitVec 24) → List (Source × BitVec 24)
  | [] => [x]
  | y :: ys => if x.1.val ≤ y.1.val then x :: y :: ys else y :: insertAlarm x ys

/-- SENSOR_SELF_CHECK: a front end that fails its check reads as an alarm of its source (R509). -/
def execSensorSelfCheck (failing : List (Source × BitVec 24)) (s : State) : Out :=
  lift (fun d => (failing.foldr insertAlarm []).foldl (fun d x => senseAlarm x.1.val x.2 d) d) s

-- Class 0x0A (R515)

def isOwnerRecorderWorkshop (r : Req) : Bool := r.tenant == 0 || r.tenant == 1 || r.tenant == 0xFE

/-- TAMPER_STATUS. -/
def execTamperStatus (r : Req) (s : State) : Out :=
  hostCmd 0x0A01 r (fun _ => needTenant r) (fun d => do
    param (r.len == 0)
    okWords d [tamperSummary d, if isOwnerRecorderWorkshop r then word d.tamper.holdEnd else 0]) s

/-- TAMPER_SOURCES. -/
def execTamperSources (r : Req) (s : State) : Out :=
  hostCmd 0x0A02 r (fun _ => need (isOwnerRecorderWorkshop r) St.policyRefused) (fun d => do
    param (r.len == 0)
    okWords d ((List.range 29).map (fun i =>
      let x := srcState d i
      mkWord [(47, 46, srcLevel d i), (45, 44, srcPattern d i), (43, 42, srcMin d i), (41, 41, flag (srcDisabled d i)),
        (40, 40, flag x.confirmed), (39, 39, flag x.latch.isSome), (38, 38, flag x.responded), (31, 24, x.count),
        (23, 0, x.value.toNat)]))) s

/-- TAMPER_INJECT (R516). -/
def execTamperInject (r : Req) (s : State) : Out :=
  hostCmd 0x0A03 r (fun d => need (r.tenant == 0 && (d.lifecycle = .manufacture || d.isD)) St.policyRefused) (fun d => do
    param (r.sized 2 && onlyBits (r.w 0) [(5, 0)] && onlyBits (r.w 1) [(23, 0)] && decide (r.f 0 5 0 ≤ 28))
    okNone (confirmSource (r.f 0 5 0) (b24 (r.w 1)) 8 d)) s

end Sys2Proof.Machine
end

