-- ==== Sys2Proof/Machine/PublicKey.lean ====
section
/-! DEFINITION. Public-key engines (09_public_key): class 0x06 and the other commands that programs serve, the ends of programs, RSA key
generation. -/
namespace Sys2Proof.Machine

-- Command parameters

/-- The program a command starts (R401). -/
def progOf (r : Req) : Nat :=
  match r.opcode.toNat with
  | 0x0601 => [0, 0x01, 0x03, 0x05, 0x11, 0x11, 0x11, 0x11, 0x11].getD (r.f 1 47 40) 0
  | 0x0602 => [0, 0x02, 0x04, 0x06, 0x10, 0x10, 0x10, 0x10, 0x10, 0x20].getD (r.f 0 47 40) 0
  | 0x0603 => [0, 0x07, 0x08, 0x09, 0x28, 0x29].getD (r.f 1 47 40) 0
  | 0x0604 => 0x2A
  | _ => 0

/-- The payload from word i on is n bytes, padded with zeros to a whole word (R421). -/
def tailOk (r : Req) (i n : Nat) : Bool :=
  decide (6 * i + n ≤ r.len) && decide (r.len ≤ 6 * i + 6 * ceilDiv n 6) && ((wordsBytes (r.words.drop i)).drop n).all (· == 0)

/-- An operand of n bytes at word i that is followed by others: its padding is zero. -/
def operandOk (r : Req) (i n : Nat) : Bool := (((wordsBytes (slice r.words i (wordsOf n)))).drop n).all (· == 0)

/-- Input lengths of a signature scheme (R402, R421). -/
def inputOk (scheme n : Nat) : Bool :=
  match scheme with
  | 1 => n == 32 || n == 48 || n == 64
  | 2 => n == 32 || n == 48 || n == 64
  | 3 => decide (n ≤ 4096)
  | 4 => n == 32
  | 5 => n == 48
  | 6 => n == 32
  | 7 => n == 48
  | 8 => n == 64
  | 9 => decide (n ≤ 4096)
  | _ => false

def isPss (scheme : Nat) : Bool := scheme == 4 || scheme == 5

def isRsa (scheme : Nat) : Bool := decide (4 ≤ scheme) && decide (scheme ≤ 8)

def saltOk (scheme n : Nat) : Bool := if isPss scheme then decide (n ≤ 64) else n == 0

/-- Key type of a signing scheme. -/
def schemeType (scheme : Nat) : Nat := if isRsa scheme then 0x20 else [0, 0x10, 0x11, 0x12].getD scheme 0

def sigLen (scheme : Nat) : Nat := if isRsa scheme then 512 else [0, 64, 96, 64].getD scheme 0

/-- Public-key and signature lengths that a scheme takes in PK_VERIFY. -/
def verifyLens (scheme pub sig : Nat) : Bool :=
  match scheme with
  | 1 => pub == 64 && sig == 64
  | 2 => pub == 96 && sig == 96
  | 3 => pub == 32 && sig == 64
  | 9 => pub == 1952 && sig == 3309
  | _ => isRsa scheme && (pub == 256 || pub == 384 || pub == 512) && sig == pub

/-- The secret key a command names: a handle with the usage, or the flacon that follows (R302, R304, R314, R413). -/
def pinKey (r : Req) (flacon : List Word) (kt usage : Nat) (d : Dev) : Res (List Byte × Option SlotRef × Dev) :=
  if r.w 0 == 0 then do
    param (fld (wd flacon 0) 31 24 == kt)
    let (m, d) ← unwrapFlacon r flacon d
    need (bitOf (wd flacon 0) (16 + usage)) St.policyRefused 1
    .ok (m, none, d)
  else do
    let (s, d) ← useSlot r (r.w 0) (some usage) d
    param (s.ktype == kt)
    .ok (s.material, some s.ref, d)

/-- PK_SIGN's checks at dispatch (R403, R421). -/
def signBody (r : Req) (d : Dev) : Res (Dev × Done) := do
  let sc := r.f 1 47 40
  let n := r.f 1 39 24
  let fl := r.f 1 15 0
  param (decide (1 ≤ sc) && decide (sc ≤ 8) && inputOk sc n && saltOk sc (r.f 1 23 16))
  param ((r.w 0 == 0) == (fl != 0) && (r.w 0 == 0 || !isRsa sc) && tailOk r (2 + fl) n)
  needProg r (progOf r) d
  let (k, slot, d) ← pinKey r (slice r.words 2 fl) (schemeType sc) Usage.sign d
  launch r [progOf r] slot (.sign sc k (r.bytesFrom (2 + fl) n) (r.f 1 23 16)) d

/-- PK_VERIFY's checks at dispatch. -/
def verifyBody (r : Req) (d : Dev) : Res (Dev × Done) := do
  let sc := r.f 0 47 40
  let n := r.f 0 39 24
  let c := r.f 0 23 16
  let pl := r.f 1 47 32
  let sl := r.f 1 31 16
  let i1 := 2 + wordsOf pl
  let i2 := i1 + wordsOf sl
  let i3 := i2 + wordsOf c
  param (onlyBits (r.w 0) [(47, 16)] && onlyBits (r.w 1) [(47, 16), (7, 0)])
  param (inputOk sc n && verifyLens sc pl sl && saltOk sc (r.f 1 7 0) && (sc == 9 || c == 0))
  param (operandOk r 2 pl && operandOk r i1 sl && operandOk r i2 c && tailOk r i3 n)
  needProg r (progOf r) d
  launch r [progOf r] none (.verify sc (r.bytesFrom 2 pl) (r.bytesFrom i1 sl) (r.bytesFrom i2 c) (r.bytesFrom i3 n) (r.f 1 7 0)) d

/-- Key type and peer length of an agreement algorithm. -/
def agreeType (alg : Nat) : Nat := [0, 0x10, 0x11, 0x13, 0x21, 0].getD alg 0
def peerLen (alg : Nat) : Nat := [0, 64, 96, 32, 1088, 1184].getD alg 0

/-- PK_AGREE's checks at dispatch (R422). -/
def agreeBody (r : Req) (d : Dev) : Res (Dev × Done) := do
  let alg := r.f 1 47 40
  let mode := r.f 1 39 32
  let n := r.f 1 31 16
  let fl := r.f 1 15 0
  let target := r.f 2 39 28
  param (decide (1 ≤ alg) && decide (alg ≤ 5) && n == peerLen alg && (mode == 1 || mode == 2) && tailOk r (12 + fl) n)
  param (if alg == 5 then r.w 0 == 0 && fl == 0 else (r.w 0 == 0) == (fl != 0) && (r.w 0 == 0 || alg != 4))
  param (if mode == 1 then r.enc && (slice r.words 2 10).all (· == 0)
    else onlyBits (r.w 2) [(39, 28)] && !isPersistent target && descOk (r.w 3) && isAes (descType (r.w 3)))
  needProg r (progOf r) d
  let target ← if mode == 2 then volatileTarget r target d else .ok 0
  let _ ← if mode == 2 then needEntry r 1 (dropSlot r.tenant target d) else .ok d
  if alg == 5 then launch r [progOf r] none (.agree alg mode [] (r.bytesFrom 12 n) target (r.w 3) (slice r.words 4 8)) d
  else
    let (k, slot, d) ← pinKey r (slice r.words 12 fl) (agreeType alg) Usage.agree d
    launch r [progOf r] slot (.agree alg mode k (r.bytesFrom (12 + fl) n) target (r.w 3) (slice r.words 4 8)) d

/-- PK_KEM_PUBLIC's checks at dispatch. -/
def kemBody (r : Req) (d : Dev) : Res (Dev × Done) := do
  let fl := r.f 0 15 0
  let f := slice r.words 1 fl
  param (onlyBits (r.w 0) [(15, 0)] && r.sized (1 + fl) && fld (wd f 0) 31 24 == 0x21)
  needProg r (progOf r) d
  let (m, d) ← unwrapFlacon r f d
  launch r [progOf r] none (.kemPublic m) d

-- The commands that programs serve (R401)

/-- The public-key programs that a command starts, in their order; none for one that needs no program. -/
def programsOf (d : Dev) (r : Req) : List Nat :=
  match r.opcode.toNat with
  | 0x0110 => openPrograms d r
  | 0x0303 => genPrograms (r.f 1 31 24)
  | 0x0310 => if r.f 0 47 40 == 1 then genPrograms (descType (r.w 1)) else []
  | 0x0314 => genPrograms (((slotAt d r.tenant (r.f 0 39 28)).map (·.ktype)).getD 0)
  | _ => if progOf r == 0 then [] else [progOf r]

def pkIssuer (r : Req) : Res Unit :=
  if r.opcode == 0x0110 then do
    needOpen r
    need (!(opensAdmin r && openTenant r != 0)) St.policyRefused
  else needTenant r

def pkBody (r : Req) (d : Dev) : Res (Dev × Done) :=
  match r.opcode.toNat with
  | 0x0110 => openBody r d
  | 0x0303 => createBody r d
  | 0x0310 => persistBody r d
  | 0x0314 => publicBody r d
  | 0x0601 => signBody r d
  | 0x0602 => verifyBody r d
  | 0x0603 => agreeBody r d
  | _ => kemBody r d

-- Waiting for an engine (R251, R398, R414)

/-- Dispatch comes to a decision now: an engine and slots are free, or a check refuses at once. -/
def pkDecides (d : Dev) (r : Req) : Bool :=
  let p := (programsOf d r).headD 0
  let part := partOf d r
  let n := slotsOf r p part
  decide (r.deadline < d.now) || !anyEngine d || p == 0 || decide (partSlots part < n) ||
    ((freeEngine d p none).isSome && !pkTimeUp d r.gen r.tenant && slotsFree d r.tenant part n)

/-- A command is dispatched when a decision can be had, or when its programs would end after its deadline (R259, R414). -/
def pkReadyNow (d : Dev) (r : Req) : Bool := pkDecides d r || pastDeadline d r (programsOf d r)

/-- Dispatches a command that programs serve. -/
def servePk (r : Req) (d : Dev) : Dev :=
  let d := { d with pkReady := d.pkReady.filter (· != r.id) }
  serve r (fun _ => pkIssuer r) (fun d => do
    need (!(pastDeadline d r (programsOf d r))) St.deadline
    pkBody r d) d

def pkCmd (op : Nat) (r : Req) (s : State) : Out :=
  lift (fun d =>
    if r ∈ d.cmds ∧ r.opcode.toNat = op then
      if pkReadyNow d r then servePk r d
      else if d.pkReady.contains r.id then d else { d with pkReady := d.pkReady ++ [r.id] }
    else d) s

/-- SESSION_OPEN (R206-R213, R225, R227, R235). -/
def execSessionOpen (r : Req) (s : State) : Out := pkCmd 0x0110 r s

/-- FLACON_CREATE (R316). -/
def execFlaconCreate (r : Req) (s : State) : Out := pkCmd 0x0303 r s

/-- KEY_PERSIST (R308, R309, R323, R615). -/
def execKeyPersist (r : Req) (s : State) : Out := pkCmd 0x0310 r s

/-- KEY_PUBLIC of a private key of type 0x10-0x13. -/
def execKeyPublic (r : Req) (s : State) : Out := pkCmd 0x0314 r s

/-- PK_SIGN (R404). -/
def execPkSign (r : Req) (s : State) : Out := pkCmd 0x0601 r s

/-- PK_VERIFY (R406). -/
def execPkVerify (r : Req) (s : State) : Out := pkCmd 0x0602 r s

/-- PK_AGREE (R422, R423). -/
def execPkAgree (r : Req) (s : State) : Out := pkCmd 0x0603 r s

/-- PK_KEM_PUBLIC. -/
def execPkKemPublic (r : Req) (s : State) : Out := pkCmd 0x0604 r s

-- Outcomes of programs (R404-R407)

/-- Every 12-bit coefficient of an encapsulation key is below q = 3,329 (R404 table). -/
def kemKeyOk (pub : List Byte) : Bool :=
  (chunksOf 3 384 pub).all (fun c =>
    let b (i : Nat) : Nat := (c.getD i 0).toNat
    decide (b 0 + b 1 % 16 * 256 < 3329) && decide (b 1 / 16 + b 2 * 16 < 3329))

/-- The five CRT parts of RSA-4096 material (R412). -/
def crtParts (m : List Byte) : List Nat := (chunksOf 256 5 m).map beNat

def crtOk (m : List Byte) : Bool :=
  match crtParts m with
  | [p, q, dp, dq, qi] =>
    decide (3 * 2 ^ 2046 ≤ p) && decide (3 * 2 ^ 2046 ≤ q) && p != q && decide (dp < p - 1) && decide (dq < q - 1)
      && decide (qi < p) && qi * q % p == 1
  | _ => false

/-- r and s of an ECDSA signature in [1, n - 1]. -/
def rsOk (c : Curve) (k : Nat) (sig : List Byte) : Bool := c.scalarOk (beNat (sig.take k)) && c.scalarOk (beNat (sig.drop k))

/-- The content checks that give PK_REJECT (R404 table). -/
def contentOk (w : PkWork) : Bool :=
  match w with
  | .sign sc k _ _ =>
    if sc == 1 then p256.scalarOk (beNat k) else if sc == 2 then p384.scalarOk (beNat k) else if isRsa sc then crtOk k else true
  | .verify sc pub sig _ _ _ =>
    if sc == 1 then p256.pointOk pub && rsOk p256 32 sig
    else if sc == 2 then p384.pointOk pub && rsOk p384 48 sig
    else if sc == 3 then edPointOk pub true && edPointOk (sig.take 32) false && decide (leNat (sig.drop 32) < edOrder)
    else if sc == 9 then dsaFormed sig
    else beNat pub % 2 == 1 && decide (2 ^ (8 * pub.length - 1) ≤ beNat pub) && decide (beNat sig < beNat pub)
  | .agree alg _ k peer _ _ _ => if alg == 5 then kemKeyOk peer else (agree alg k peer).isSome
  | _ => true

/-- "KV4856-AGREE". -/
def agreeKeyLabel : List Byte := ascii (kvDash ++ [0x41, 0x47, 0x52, 0x45, 0x45])

/-- The key of output mode 0x02 (R423). -/
def agreeKey (z : List Byte) (desc : Word) (label : List Word) : List Byte :=
  kdf (sha256 z) agreeKeyLabel (wordBytes desc ++ wordsBytes (fitW 8 label)) (topBits (descType desc))

/-- Z and the ciphertext of an agreement. -/
def sharedSecret (alg : Nat) (k peer : List Byte) (d : Dev) : List Byte × List Byte × Dev :=
  if alg == 5 then
    let (m, d) := drawBytes 32 d
    let e := kemEncaps peer m
    (e.2, e.1, d)
  else ((agree alg k peer).getD [], [], d)

/-- The outcome of a command whose last program has passed its content checks. -/
def pkResult (j : PkJob) (d : Dev) : Dev :=
  match j.work with
  | .sign sc k msg salt =>
    let (sig, d) := makeSignature sc k msg salt d
    let ws := word (sigLen sc) :: bytesWords (fit (sigLen sc) sig)
    complete j.req St.ok ws (6 * ws.length) d
  | .verify sc pub sig ctx msg salt => complete j.req (if sigHolds sc pub msg sig ctx salt then St.ok else St.authFail) [] 0 d
  | .agree alg mode k peer target desc label =>
    let (z, ct, d) := sharedSecret alg k peer d
    if mode == 1 then
      let ws := mkWord [(7, 0, z.length), (23, 8, ct.length)] :: bytesWords z ++ bytesWords ct
      complete j.req St.ok ws (6 * ws.length) d
    else
      match needEntry j.req 1 (dropSlot j.tenant target d) with
      | .error e => refuse j.req e d
      | .ok d =>
        let (h, d) := writeVolatile { tenant := j.tenant, index := target, ktype := descType desc
                                      usages := BitVec.ofNat 8 (descUsages desc), streamRel := bitOf desc 24, descriptor := desc
                                      material := agreeKey z desc label } d
        let ws := h :: bytesWords ct
        complete j.req St.ok ws (6 * ws.length) d
  | .kemPublic seed => complete j.req St.ok (bytesWords (fit 1184 (publicKey 0x21 seed))) 1184 d
  | .keyPublic kt k => complete j.req St.ok (bytesWords (fit (publicLen kt) (publicKey kt k))) (publicLen kt) d
  | .generate => settle j.req d (if j.req.opcode == 0x0303 then createFinish j.req d else persistFinish j.req d)
  | .session kt key =>
    match j.req.origin with
    | .port p => openEnd j.req p j.began kt key d
    | _ => d
  | .rsa _ => d

-- RSA key generation (R410, R411)

/-- The next program of a key generation. -/
def nextRsaProg (x : RsaOp) : Nat := if x.q.isSome then 0x14 else if x.candidate.isSome then 0x13 else 0x12

def modRsa (h : BitVec 24) (f : RsaOp → RsaOp) (d : Dev) : Dev :=
  modLong h (fun l => match l.data with
    | .rsa x => { l with data := .rsa (f x) }
    | _ => l) d

/-- Both top bits set and odd (R410 step 1). -/
def rsaForm (n : Nat) : Nat := 3 * 2 ^ 2046 + n % 2 ^ 2045 * 2 + 1

/-- Material p, q, dP, dQ, qInv (R412). -/
def crtMaterial (p q : Nat) : List Byte :=
  beBytes 256 p ++ beBytes 256 q ++ beBytes 256 (modInv 65537 (p - 1)) ++ beBytes 256 (modInv 65537 (q - 1)) ++ beBytes 256 (modInv q p)

/-- The flacon and modulus of two primes; the operation ends DONE, or FAILED when its flacon cannot be built. -/
def assemble (h : BitVec 24) (x : RsaOp) (p q : Nat) (d : Dev) : Dev :=
  let t := x.req.tenant
  match needHeart t x.req.gen d with
  | .error e => finishLong h .failed e.status d
  | .ok d =>
    let f := template x.template (liveEpoch d t) 1280
    let (fl, d) := sealFlacon (flaconKeyOf d t (tenantEpoch d x.req.gen t) (liveEpoch d t)) f (crtMaterial p q) d
    finishLong h .done St.ok (modRsa h (fun y => { y with result := some (fl, beBytes 512 (p * q)), slots := 0 }) d)

/-- What a program's end makes of its key generation. -/
def rsaStep (h : BitVec 24) (x : RsaOp) (prog : Nat) (d : Dev) : Dev :=
  if prog == 0x12 then
    let (b, d) := drawBytes 256 d
    let c := rsaForm (beNat b)
    modRsa h (fun y => { y with candidate := if rsaSieved c then some c else none, tests := 0 }) d
  else if prog == 0x13 then
    let (b, d) := drawBytes 512 d
    let c := x.candidate.getD 0
    if (chunksOf 256 2 b).any (fun a => composite c (2 + beNat a % (c - 3))) then modRsa h (fun y => { y with candidate := none, tests := 0 }) d
    else if x.tests == 0 then modRsa h (fun y => { y with tests := 1 }) d
    else
      match x.p with
      | none => modRsa h (fun y => { y with p := some c, candidate := none, tests := 0 }) d
      | some p =>
        if (max p c - min p c) ≤ 2 ^ 1948 then modRsa h (fun y => { y with candidate := none, tests := 0 }) d
        else modRsa h (fun y => { y with q := some c, candidate := none, tests := 0 }) d
  else assemble h x (x.p.getD 0) (x.q.getD 0) d

/-- A program of a key generation ends: the operation takes its step and passes a suspension point; 2,048 programs without
reaching step 6 end it (R411). -/
def rsaProgEnd (h : BitVec 24) (prog : Nat) (d : Dev) : Dev :=
  match longAt d h with
  | none => d
  | some l =>
    match l.data, l.state.final with
    | .rsa x, false =>
      let d := modLong h (fun l => { l with units := l.units + 1 }) (modRsa h (fun y => { y with inWork := false, programs := y.programs + 1 }) d)
      if l.state = .cancelPending then suspensionPoint h d
      else
        let d := rsaStep h x prog d
        let late := match longAt d h with
          | some l => (match l.data with
            | .rsa y => !l.state.final && decide (2048 ≤ y.programs) && nextRsaProg y != 0x14
            | _ => false)
          | none => false
        if late then finishLong h .failed St.internalFault d else suspensionPoint h d
    | _, _ => d

-- SCH's choice for a free engine (R251)

/-- A program over 20 ms is queued and held back by R253; then no further key generation program starts (R415). -/
def longHeldBack (d : Dev) : Bool :=
  longRuns d && d.cmds.any (fun r => d.pkReady.contains r.id && isLongProg ((programsOf d r).headD 0))

/-- Key generations that could run their next program now; one that is QUEUED starts with it (R266). -/
def rsaReady (d : Dev) : List (BitVec 24 × RsaOp) :=
  if longHeldBack d then []
  else d.sched.longs.filterMap (fun l => match l.data with
    | .rsa x => if (l.state = .running || l.state = .queued) && !x.inWork && (freeEngine d (nextRsaProg x) none).isSome && !pkTimeUp d (if l.state = .queued then d.pat.gen else l.gen) l.tenant
        then some (l.handle, x) else none
    | _ => none)

/-- A command's program comes to nothing; a SESSION_OPEN answers at its fixed time all the same (R208). -/
def failJob (j : PkJob) (st : Byte) (d : Dev) : Dev :=
  match j.work with
  | .rsa h => finishLong h .failed st d
  | .session _ _ => holdOpen j.req j.began st [] d
  | _ => refuseWith j.req st 0 d

def isRsaJob (j : PkJob) : Bool :=
  match j.work with
  | .rsa _ => true
  | _ => false

/-- The rest of a waiting program's chain would end after its deadline (R259, R414). -/
def jobLate (d : Dev) (j : PkJob) : Bool := !isRsaJob j && pastDeadline d j.req (j.prog :: j.chain)

/-- A program other than the verify programs that waits while the random source has failed (R420). -/
def jobBarred (d : Dev) (j : PkJob) : Bool := !(isVerifyProg j.prog || d.sym.randomOk)

def dropWaiting (j : PkJob) (d : Dev) : Dev := { d with pk := { d.pk with waiting := d.pk.waiting.erase j } }

/-- Gives free engines work: retries, ready commands, key generation programs; what needs a failed random source ends with
INTERNAL_FAULT (R420). `fuel` bounds the choices. -/
def fillEngines : Nat → Dev → Dev
  | 0, d => d
  | n + 1, d =>
    if dispatchStopped d then d else
    match d.pk.waiting.find? (fun j => jobLate d j || jobBarred d j) with
    | some j => fillEngines n (failJob j (if jobLate d j then St.deadline else St.internalFault) (dropWaiting j d))
    | none =>
      let jobs := d.pk.waiting.filter (fun j => (freeEngine d j.prog j.avoid).isSome && !pkTimeUp d j.req.gen j.tenant)
      let cmds := d.cmds.filter (fun r => d.pkReady.contains r.id && pkReadyNow d r)
      let gens := rsaReady d
      match pickReq (jobs.map (·.req) ++ cmds ++ gens.map (fun g => g.2.req)) d.sched with
      | (none, _) => d
      | (some r, sc) =>
        let d := { d with sched := sc }
        match jobs.find? (fun j => j.req == r) with
        | some j => fillEngines n (match freeEngine d j.prog j.avoid with
          | some e => startProg e j d
          | none => d)
        | none =>
          match gens.find? (fun g => g.2.req == r) with
          | some (h, x) =>
            if !d.sym.randomOk then fillEngines n (finishLong h .failed St.internalFault d) else
            let p := nextRsaProg x
            let d := modLong h (fun l => if l.state = .queued then { l with state := .running, gen := d.pat.gen } else l) d
            let gen := ((longAt d h).map (·.gen)).getD d.pat.gen
            fillEngines n (match freeEngine d p none with
              | some e => startProg e { req := { x.req with gen := gen }, prog := p, tenant := x.req.tenant, work := .rsa h }
                  (modRsa h (fun y => { y with inWork := true }) d)
              | none => d)
          | none => fillEngines n (servePk r d)

/-- RSA_KEYGEN (R410): the operation holds the slots of RSA assemble until its final state. -/
def execRsaKeygen (r : Req) (s : State) : Out :=
  lift (fun d =>
    if r ∈ d.cmds ∧ r.opcode.toNat = 0x0610 then
      fillEngines 600 (serve r (fun _ => needTenant r) (fun d => do
        let f := template (r.words.drop 1) (liveEpoch d r.tenant) 1280
        param (r.sized 7 && r.w 0 == 0 && fld (wd f 0) 39 32 == r.tenant.toNat && headerOk 1 f)
        param (fld (wd f 0) 31 24 == 0x20 && fld (wd f 0) 23 16 == 0x40)
        let part := partOf d r
        let n := progSlots 0x14 part.2
        needProg r 0x14 d
        if slotsFree d r.tenant part n then startLong r 5 0 (.rsa { req := r, template := f, slots := n, part := part }) [] d .queued
        else .ok (d, .wait)) d)
    else d) s

/-- RSA_KEYGEN_RESULT (R419, R424). -/
def execRsaKeygenResult (r : Req) (s : State) : Out :=
  hostCmd 0x0611 r (fun _ => needTenant r) (fun d => do
    param (r.sized 1 && onlyBits (r.w 0) [(23, 0)])
    need (anyEngine d) St.internalFault
    match longAt d (BitVec.ofNat 24 (r.f 0 23 0)) with
    | none => rej St.policyRefused
    | some l => do
      need (l.tenant == r.tenant) St.policyRefused
      param (l.kind == 5 && l.state = .done)
      match l.data with
      | .rsa x =>
        match x.result with
        | some (fl, n) =>
          let ws := word 225 :: fitW 225 fl ++ bytesWords n
          okBytes d ws (6 * 226 + 512)
        | none => rej St.paramRange
      | _ => rej St.paramRange) s

/-- Build identifier of the running component of a type. -/
def buildOf (d : Dev) (t : Nat) : Nat := ((d.fw.running.find? (fun c => c.ctype == t)).map (·.build)).getD 0

/-- PK_INFO (R393, R419). -/
def execPkInfo (r : Req) (s : State) : Out :=
  hostCmd 0x0620 r (fun _ => needTenant r) (fun d => do
    param (r.len == 0)
    need (anyEngine d) St.internalFault
    okWords d (mkWord [(47, 24, (Config.microcodeVersion (buildOf d 5)).toNat),
        (9, 8, flag (engineServes d 0) + flag (engineServes d 1)), (7, 0, programIds.length)]
      :: programIds.map (fun p => mkWord [(47, 40, p), (31, 0, (Config.programCycles p).toNat)]))) s

-- Program ends and fences (R399, R416-R418)

/-- Fences an engine (R418); the program on it, if any, waits for the other one. -/
def fenceEngine (e cause : Nat) (d : Dev) : Dev :=
  fenceRecord (0x20 + e) cause (reportFence (0x20 + e) cause (modEngine e (fun x => { x with fenced := true }) d))

/-- Retries and queued work that no engine is left for end with INTERNAL_FAULT (R417, R419). -/
def failPkStranded (d : Dev) : Dev :=
  let stranded (d : Dev) (j : PkJob) : Bool := !(List.range 2).any (fun e => engineServes d e && j.avoid != some e)
  let bad := d.pk.waiting.filter (stranded d)
  bad.foldl (fun d j => failJob j St.internalFault d) { d with pk := { d.pk with waiting := d.pk.waiting.filter (fun j => !stranded d j) } }

/-- An output check fails on an engine: the datapath source, and the fence at the third within 4,096 ticks (R417, R418). -/
def checkFailed (e : Nat) (d : Dev) : Dev :=
  let d := tamperEvent Src.datapath (0x20 + e) d
  let d := modEngine e (fun x => { x with fails := x.fails.filter (fun t => decide (d.now ≤ t + 4096)) ++ [d.now] }) d
  if 3 ≤ (d.pk.engines.getD e {}).fails.length then fenceEngine e 5 d else d

/-- A retry on the other engine when that is in service and the deadline permits it; the chain of a SESSION_OPEN
goes there with it (R417; DESIGN CHOICE, log 54). -/
def retryElsewhere (e : Nat) (j : PkJob) (d : Dev) : Dev :=
  if engineServes d (1 - e) && !jobLate d j then
    { d with pk := { d.pk with waiting := d.pk.waiting ++ [{ j with retried := true, withheld := false, avoid := some e }] } }
  else failJob j St.internalFault d

/-- A failed output check: one retry (R417). -/
def outputFailed (e : Nat) (j : PkJob) (d : Dev) : Dev :=
  let d := checkFailed e d
  if j.retried then failJob j St.internalFault d else retryElsewhere e j d

/-- A program has ended well: the next one of its chain starts on the same engine when it may (R208, R420), or the command has its
outcome. -/
def programDone (e : Nat) (j : PkJob) (d : Dev) : Dev :=
  match j.chain, j.work with
  | p :: ps, _ =>
    let next := { j with prog := p, chain := ps, retried := false, avoid := none }
    if jobBarred d next then failJob j St.internalFault d else startProg e next d
  | [], .rsa h => rsaProgEnd h j.prog d
  | [], _ => pkResult j d

/-- An integer in operand slots: 48-bit limbs, the least significant in the lowest word (R397). -/
def limbs (bs : List Byte) : List Word := (List.range (ceilDiv bs.length 6)).map (fun i => word (beNat bs / 2 ^ (48 * i)))

/-- What the secret-input slots of a job hold while its program runs (R395, R397): the integers of a sign or agreement program as limbs,
any other secret in its byte order. -/
def secretInputs (j : PkJob) : List (List Word) :=
  match j.work with
  | .sign sc k _ _ => if isRsa sc then (chunksOf 256 5 k).map limbs else if sc ≤ 2 then [limbs k] else [bytesWords k]
  | .agree alg _ k _ _ _ _ => if alg ≤ 2 then [limbs k] else if alg = 5 then [] else [bytesWords k]
  | .kemPublic k => [bytesWords k]
  | .keyPublic kt k => if kt ≤ 0x11 then [limbs k] else [bytesWords k]
  | _ => []

/-- A program's slots and the 14 KiB scratch of its engine are overwritten with random words before they are free (R399). -/
def refillOperands (j : PkJob) (d : Dev) : Dev := spendWords (j.slots * j.part.2 + 14 * 1024 / 6) d

/-- PK_PROGRAM_END (R391, R399, R404-R417), never before the program's fixed end: the outcome, the slots free again, SCH's next choice.
A tamper response goes first (R491). -/
def execPkProgramEnd (e : Fin 2) (outputOk : Bool) (s : State) : Out :=
  lift (fun d =>
    match engineJob d e.val with
    | none => d
    | some j =>
      if responseDue d || decide (d.now < j.started + progUs j.prog * 4096 / 1000000) then d
      else
        let d := modEngine e.val (fun x => { x with job := none }) { d with power := { d.power with workAt := d.now } }
        let d := refillOperands j d
        let d :=
          if j.abandoned then d
          else if j.revoked then refuseWith j.req St.keyRevoked 0 d
          else if !contentOk j.work then complete j.req St.pkReject [] 0 d
          else if j.withheld then retryElsewhere e.val j d
          else if hasOutputCheck j.prog && !outputOk then outputFailed e.val j d
          else programDone e.val j d
        fillEngines 600 (failPkStranded d)) s

/-- PK_KAT (R418). -/
def execPkKat (e : Fin 2) (passed : Bool) (s : State) : Out :=
  lift (fun d =>
    if !engineServes d e.val then d
    else
      let d := logAt Core.sch 210 (word (0x20 + e.val)) (word (flag passed)) false d
      if passed then d else failPkStranded (fenceEngine e.val 1 d)) s

end Sys2Proof.Machine
end

