-- ==== Sys2Proof/Machine/Applets.lean ====
section
/-! DEFINITION. The applet machine (16_applets): class 0x0F, activations, service calls and the applet instructions. -/
namespace Sys2Proof.Machine

-- Class 0x0F (R675, R682, R683)

def refOf (r : Req) : AppletRef := { tenant := r.tenant, id := BitVec.ofNat 16 (r.f 0 47 32) }

/-- The enabled admission entry of an applet in the command's bound generation (R676). -/
def boundEntry (d : Dev) (r : Req) (a : AppletRef) : Option (List Word) := admissionEntry (d.image r.gen) a

/-- Words of the largest image: header, code, data, key, signature. -/
def imageMax : Nat := 8 + 10923 + 5461 + 32

def imgKeyAt (img : List Word) : Nat := 8 + imgCodeWords img + imgInit img

/-- Key and signature bytes of a scheme (R672). -/
def appletKeyLen (scheme : Nat) : Nat := if scheme == 2 then 96 else 32
def appletSigLen (scheme : Nat) : Nat := if scheme == 2 then 96 else 64

def imgScheme (img : List Word) : Nat := fld (wd img 3) 31 24
def imgKeyWords (img : List Word) : List Word := slice img (imgKeyAt img) 16
def imgSigWords (img : List Word) : List Word := slice img (imgKeyAt img + 16) 16

/-- The image agrees with its header: lengths, ranges, reserved bits, every instruction, unused bytes (R657, R672). -/
def imgFormed (img : List Word) : Bool :=
  let c := imgCount img
  let sc := imgScheme img
  fld (wd img 0) 47 40 == 1 && decide (1 ≤ c) && decide (c ≤ 21845) && decide (1 ≤ imgSize img) && decide (imgSize img ≤ 5461)
    && decide (imgInit img ≤ imgSize img) && onlyBits (wd img 3) [(47, 32), (31, 24), (15, 0)] && (sc == 2 || sc == 3)
    && decide (fld (wd img 3) 15 0 + 683 ≤ imgSize img) && onlyBits (wd img 4) [(31, 0)]
    && (slice img 5 3).all (· == 0) && img.length == imgKeyAt img + 32
    && (imgCode img).all (fun i => (decodeApplet i).isSome)
    && (c % 2 == 0 || fld (wd img (7 + imgCodeWords img)) 23 0 == 0)
    && ((wordsBytes (imgKeyWords img)).drop (appletKeyLen sc)).all (· == 0)
    && ((wordsBytes (imgSigWords img)).drop (appletSigLen sc)).all (· == 0)

/-- The signed digest D (R673). -/
def appletDigest (img : List Word) : List Byte := sha384 (tagKV4856 0x41 0x50 ++ wordsBytes (img.take (imgKeyAt img)))

def imgSignature (img : List Word) : PkWork :=
  let sc := imgScheme img
  .verify sc ((wordsBytes (imgKeyWords img)).take (appletKeyLen sc)) ((wordsBytes (imgSigWords img)).take (appletSigLen sc)) []
    (appletDigest img) 0

/-- The signature verifies (R673); a key or signature that fails its content checks does not. -/
def imgVerifies (img : List Word) : Bool :=
  contentOk (imgSignature img) && (match imgSignature img with
    | .verify sc pub sig ctx msg salt => sigHolds sc pub msg sig ctx salt
    | _ => false)

/-- An applet as a load places it on a cluster. -/
def loadedApplet (a : AppletRef) (img : List Word) (c : Nat) : Applet :=
  { ref := a, version := fld (wd img 0) 15 0, build := fld (wd img 4) 31 0, image := img, code := imgCode img, data := imgData img
    entries := [fld (wd img 2) 47 32, fld (wd img 2) 31 16, fld (wd img 2) 15 0, fld (wd img 3) 47 32]
    inputAt := fld (wd img 3) 15 0, cluster := c }

/-- What the last chunk of a load makes of the image (R675): the checks by status, then the place (R652). The chunk waits for an
engine with its load kept (log 54). -/
def admitImage (r : Req) (a : AppletRef) (img : List Word) (kept d : Dev) : Res (Dev × Done) := do
  param (imgFormed img)
  need (fld (wd img 0) 39 32 == r.tenant.toNat && fld (wd img 0) 31 16 == a.id.toNat) St.policyRefused
  match boundEntry d r a with
  | none => rej St.policyRefused
  | some e => do
    need (decide (fld (wd e 0) 23 8 ≤ fld (wd img 0) 15 0)) St.policyRefused
    need (sha384 (wordsBytes (imgKeyWords img)) == (wordsBytes (slice e 1 8))) St.policyRefused
    untilEngine kept (do
      let d := chargePk r.tenant (if imgScheme img == 2 then 0x04 else 0x06) d
      need (imgVerifies img) St.authFail
      match placeFor d img with
      | none => rej St.busyRetry
      | some c =>
        okWords (mapApplet a true
            { d with app := { d.app with applets := d.app.applets.filter (fun x => x.ref != a) ++ [loadedApplet a img c] } })
          [word img.length, word c, word (footprint img)])

/-- APPLET_LOAD (R652, R657, R673, R675, R683). A refusal of the last chunk ends the load. -/
def execAppletLoad (r : Req) (s : State) : Out :=
  lift (fun d0 =>
    if r ∈ d0.cmds ∧ r.opcode.toNat = 0x0F01 then
      let a := refOf r
      let last := bitOf (r.w 0) 24
      let old := ((d0.app.loads.find? (fun l => l.1 == a)).map (·.2)).getD []
      let img := old ++ r.words.drop 1
      let formed := r.sized r.words.length && r.sizedMin 2 && onlyBits (r.w 0) [(47, 32), (24, 24), (15, 0)]
      let inOrder := r.f 0 15 0 == old.length && decide (img.length ≤ imageMax)
      let rest := d0.app.loads.filter (fun l => l.1 != a)
      let ends := last && formed && inOrder && !mustWait r d0 && decide (d0.now ≤ r.deadline)
      serve r (fun d => do needTenant r; needRight d r 2) (fun d => do
        param (formed && inOrder)
        need (!((appletAt d a).any (·.loaded))) St.busyRetry
        if last then admitImage r a img { d with app := { d.app with loads := d0.app.loads } } d
        else okWords { d with app := { d.app with loads := rest ++ [(a, img)] } } [word img.length])
        (if ends then { d0 with app := { d0.app with loads := rest } } else d0)
    else d0) s

/-- The tenant's applet that a command names. -/
def theApplet (d : Dev) (r : Req) : Res Applet :=
  match appletAt d (refOf r) with
  | some x => if x.loaded then .ok x else rej St.policyRefused
  | none => rej St.policyRefused

/-- APPLET_UNLOAD (R679). -/
def execAppletUnload (r : Req) (s : State) : Out :=
  hostCmd 0x0F02 r (fun _ => needTenant r) (fun d => do
    param (r.sized 1 && onlyBits (r.w 0) [(47, 32)])
    let x ← theApplet d r
    okNone (requestUnload x.ref d)) s

/-- APPLET_CALL, long (R666): a QUEUED operation that the applet takes up when it is free. -/
def execAppletCall (r : Req) (s : State) : Out :=
  hostCmd 0x0F03 r (fun _ => needTenant r) (fun d => do
    let n := r.f 0 15 0
    param (onlyBits (r.w 0) [(47, 32), (15, 0)] && decide (n ≤ 4096) && decide (6 + n ≤ r.len) && decide (r.len ≤ 6 + 6 * wordsOf n)
      && ((wordsBytes (r.words.drop 1)).drop n).all (· == 0))
    let x ← theApplet d r
    match (boundEntry d r x.ref) with
    | none => rej St.policyRefused
    | some e => do
      need (entryPermits e 1 && decide (fld (wd e 0) 23 8 ≤ x.version)) St.policyRefused
      let op : LongOp := { kind := 6, tenant := r.tenant, state := .queued, gen := r.gen, origin := r.origin, deadline := r.deadline
                           cmd := r.id, data := .applet x.ref (r.words.drop 1) n }
      let (h, d) := addLong op d
      .ok (nextActivation x.ref d, .reply St.accepted [acceptedWord 6 h] 6)) s

/-- APPLET_RESULT (R682). An operation that ended before an activation has no end code of R680: that field is left open (log 13). -/
def execAppletResult (r : Req) (s : State) : Out :=
  hostCmd 0x0F04 r (fun _ => needTenant r) (fun d => do
    param (r.sized 1 && onlyBits (r.w 0) [(23, 0)])
    match longAt d (BitVec.ofNat 24 (r.f 0 23 0)) with
    | none => rej St.policyRefused
    | some l => do
      need (l.tenant == r.tenant) St.policyRefused
      param (l.kind == 6 && l.state.final)
      if l.result.isEmpty then okWords d [mkWord [(47, 40, Config.unstated 61 [l.status.toNat])], 0, 0]
      else okBytes d l.result l.resultBytes) s

/-- The value of APPLET_TRIGGER's W1 is in range for the trigger. -/
def triggerValueOk (code : Nat) (w : Word) : Bool :=
  if code == 2 then decide (1024 ≤ w.toNat) && decide (w.toNat ≤ 2 ^ 32)
  else if code == 3 then w == 0
  else onlyBits w [(25, 24), (23, 0)] && fld w 25 24 != 0 && decide (256 ≤ fld w 23 0) && decide (fld w 23 0 ≤ 51200)

/-- A trigger with its configured value, enabled or not. -/
def setTrigger (code : Nat) (on : Bool) (w : Word) (now : Nat) (x : Applet) : Applet :=
  let en := x.enabled.filter (· != code)
  let x := { x with enabled := if on then en ++ [code] else en }
  if code == 2 then { x with period := w.toNat, timerAt := now / w.toNat }
  else if code == 4 then { x with threshold := fld w 23 0, direction := fld w 25 24 }
  else x

/-- APPLET_TRIGGER (R665, R683). -/
def execAppletTrigger (r : Req) (s : State) : Out :=
  hostCmd 0x0F05 r (fun _ => needTenant r) (fun d => do
    let code := r.f 0 7 0
    param (r.sized 2 && onlyBits (r.w 0) [(47, 32), (8, 8), (7, 0)] && decide (2 ≤ code) && decide (code ≤ 4)
      && triggerValueOk code (r.w 1))
    let x ← theApplet d r
    need (((boundEntry d r x.ref).map (fun e => entryPermits e code)).getD false) St.policyRefused
    okNone (modApplet x.ref (setTrigger code (bitOf (r.w 0) 8) (r.w 1) d.now) d)) s

/-- What APPLET_STATUS shows of an applet; the triggers field has the bits of the admission entry, code 1 at bit 0 (log 35). -/
def appletStatusWords (x : Applet) : List Word :=
  let st := if !x.loaded then 0 else if x.act.any (fun t => t.started) then 2 else 1
  [mkWord [(47, 40, st), (39, 32, if x.loaded then x.cluster else 0),
      (31, 28, (x.enabled.map (fun c => 2 ^ (c - 1))).foldl (· + ·) 0), (7, 0, x.lastEnd)],
    word x.activations, word x.missed, mkWord [(47, 32, x.version), (31, 0, x.build)]]

/-- APPLET_STATUS. -/
def execAppletStatus (r : Req) (s : State) : Out :=
  hostCmd 0x0F06 r (fun _ => needTenant r) (fun d => do
    param (r.sized 1 && onlyBits (r.w 0) [(47, 32)])
    okWords d (((appletAt d (refOf r)).map appletStatusWords).getD [0, 0, 0, 0])) s

/-- APPLET_LIST. -/
def execAppletList (r : Req) (s : State) : Out :=
  hostCmd 0x0F07 r (fun _ => needTenant r) (fun d => do
    param (r.len == 0)
    let l := d.app.applets.filter (fun x => x.ref.tenant == r.tenant && x.loaded)
    okWords d (word l.length :: l.map (fun x => mkWord [(47, 32, x.ref.id.toNat)]))) s

-- Activations (R654, R664-R671)

/-- APPLET_TIMER_TRIGGER: the tick has reached a multiple of the period. -/
def execAppletTimerTrigger (a : AppletRef) (s : State) : Out :=
  lift (fun d =>
    match appletAt d a with
    | some x =>
      if x.enabled.contains 2 && decide (x.timerAt < d.now / x.period) then
        fireTrigger 2 [d.time.tick] a (modApplet a (fun x => { x with timerAt := d.now / x.period }) d)
      else d
    | none => d) s

/-- The applet's control core is halted by a debug request. -/
def appletHalted (d : Dev) (x : Applet) : Bool := d.dbg.halted.contains (8 + x.cluster)

/-- The cores run: ACTIVE or IDLE, firmware up. -/
def coresRun (d : Dev) : Bool := d.boot.running && (d.power.state = .active || d.power.state = .idle)

/-- Registers at the start of an activation (R654, R665). -/
def startRegs (t : Activation) : List Word := fitW 16 (word t.trigger :: t.init)

/-- Data memory with the input of a host call at the input address, zeros after it (R672). -/
def withInput (at' : Nat) (input : List Word) (data : List Word) : List Word :=
  data.take at' ++ fitW 683 input ++ data.drop (at' + 683)

/-- Puts an activation in place. -/
def setAct (a : AppletRef) (t : Activation) (d : Dev) : Dev := modApplet a (fun x => { x with act := some t }) d

/-- The activation begins: registers, PC, fuel, the input of a host call. -/
def beginActivation (a : AppletRef) (x : Applet) (t : Activation) (l : LongOp) (d : Dev) : Dev :=
  let input := match l.data with
    | .applet _ ws _ => ws
    | _ => []
  let pc := x.entries.getD (t.trigger - 1) 0
  let t := { t with started := true, regs := startRegs t, pc := pc, fuel := t.budget, mark := t.budget }
  let d := modLong t.handle (fun l => { l with state := .running, gen := d.pat.gen })
    { d with power := { d.power with workAt := d.now, state := if d.power.state = .idle then .active else d.power.state } }
  let d := modApplet a (fun x => { x with
    act := some t, activations := x.activations + 1
    data := if t.trigger == 1 then withInput x.inputAt input x.data else x.data }) d
  let d := traceT (BitVec.ofNat 8 (0x10 + x.cluster)) 211 a.tenant (word a.tenant.toNat) (word t.trigger) d
  if pc < x.code.length then d else endActivation a End.codeBounds 0 0 [] d

/-- APPLET_ACTIVATION_START (R654, R266): a queued activation starts, or its host call's deadline has passed. -/
def execAppletActivationStart (a : AppletRef) (s : State) : Out :=
  lift (fun d =>
    match appletAt d a with
    | none => d
    | some x =>
      match x.act with
      | none => nextActivation a d
      | some t =>
        match longAt d t.handle with
        | none => d
        | some l =>
          if t.started || !(l.state = .queued) then d
          else if !l.internal && decide (l.deadline < d.now) then nextActivation a (finishLong l.handle .failed St.deadline d)
          else if !x.loaded || appletHalted d x || dispatchStopped d || !coresRun d || laneTimeUp d d.pat.gen a.tenant then d
          else beginActivation a x t l d) s

/-- A whole 4,096 fuel units have been used since the last checkpoint (R671). -/
def checkpointDue (t : Activation) : Bool := decide (4096 ≤ t.mark - t.fuel)

/-- The activation of an applet that executes instructions: started, not suspended, waiting for no reply and no checkpoint, its core
running and its tenant's lane time left (R244, R655). -/
def executing (d : Dev) (a : AppletRef) : Option (Applet × Activation) :=
  match appletAt d a with
  | none => none
  | some x =>
    match x.act with
    | none => none
    | some t =>
      if t.started && t.call.isNone && !checkpointDue t && x.loaded && !appletHalted d x && coresRun d
          && (longAt d t.handle).any (fun l => longRunning l && !laneTimeUp d l.gen a.tenant) then some (x, t)
      else none

/-- FUEL_CHECKPOINT (R671). -/
def execFuelCheckpoint (a : AppletRef) (s : State) : Out :=
  lift (fun d =>
    match (appletAt d a).bind (·.act) with
    | some t =>
      if t.started && t.call.isNone && checkpointDue t && (longAt d t.handle).any longRunning then
        closeMixed (appletPoint a (chargeApplet a (setAct a { t with mark := t.mark - 4096 } d)))
      else d
    | none => d) s

-- Data memory, byte order of R5

/-- Data memory with bytes put at a byte address. -/
def putBytes (data : List Word) (n : Nat) (bs : List Byte) : List Word :=
  let all := wordsBytes data
  bytesWordsN data.length (all.take n ++ bs ++ all.drop (n + bs.length))

def getByte (data : List Word) (n : Nat) : Byte := (wordBytes (wd data (n / 6))).getD (n % 6) 0

/-- n bytes from a word address on lie inside data memory. -/
def inData (x : Applet) (addr : Word) (n : Nat) : Bool := decide (6 * addr.toNat + n ≤ 6 * x.data.length)

def dataBytes (x : Applet) (addr : Word) (n : Nat) : List Byte := slice (wordsBytes x.data) (6 * addr.toNat) n

-- Service calls (R660-R664)

/-- The service calls that R663 refuses. -/
def serviceBarred (r : Req) (d : Dev) : Bool :=
  let c := r.cls
  let ownHandle := ((longAt d (BitVec.ofNat 24 (r.f 0 23 0))).map (fun l => match l.data, r.origin with
    | .applet b _ _, .applet a => a == b
    | _, _ => false)).getD false
  [0x01, 0x02, 0x0C, 0x0D, 0x0F, 0x10, 0x11].contains c || (c == 0x0A && r.opcode != 0x0A01)
    || (c == 0x0E && r.opcode != 0x0E06 && !ownHandle) || opcodeForm r.opcode.toNat == some true
    || (r.opcode == 0x0304 && r.f 0 47 40 == 1) || (r.opcode == 0x0603 && r.f 1 39 32 == 1) || r.opcode == 0x0712 || r.opcode == 0x0B12

/-- The checks of R197 from step 2 on, and admission (R661). -/
def serviceAccepted (r : Req) (w5 : Word) (d : Dev) : Dev :=
  if !onlyBits w5 [(15, 8), (1, 1)] then complete r St.paramRange [] 0 d
  else if (opcodeForm r.opcode.toNat).isNone && !(mgmtOpcodes.any (fun x => x.1 == r.opcode.toNat)) && r.opcode != 0x0D00 then
    complete r St.opcodeUnknown [] 0 d
  else if r.layout ≠ 1 then complete r St.layoutRevision [] 0 d
  else if serviceBarred r d || isAdminCmd r then refuseWith r St.policyRefused 0 d
  else admitCmd r d

/-- The command a service call submits, from W1 to W5 and data memory. -/
def serviceReq (a : AppletRef) (x : Applet) (t : Activation) (opcode : BitVec 16) (d : Dev) : Req :=
  let n := (wd t.regs 2).toNat
  let w5 := wd t.regs 5
  { id := d.nextId, origin := .applet a, tenant := a.tenant, opcode := opcode, flags := if bitOf w5 1 then 2 else 0
    layout := BitVec.ofNat 8 (fld w5 15 8), len := n, words := bytesWords (dataBytes x (wd t.regs 1) n), gen := d.pat.gen
    start := d.now, deadline := d.now }

/-- SERVICE_CALL_RETURN (R660, R664): the reply enters the registers and the buffer; the return is a suspension point (DEDUCED, log 59). -/
def execServiceCallReturn (a : AppletRef) (s : State) : Out :=
  lift (fun d =>
    match appletAt d a with
    | none => d
    | some x =>
      match x.act with
      | none => d
      | some t =>
        match t.call with
        | none => d
        | some c =>
          if appletHalted d x || !coresRun d then d
          else
            match d.done.find? (fun y => y.req.origin == .applet a && y.req.id == c.id) with
            | none => d
            | some y =>
              let regs := setAt (setAt (setAt t.regs 0 (word (wireStatus y.req y.status).toNat)) 1 (word y.bytes)) 2
                (replyH2 y.req.gen y.tick)
              let bs := (wordsBytes y.words).take (min y.bytes c.capacity)
              let d := modApplet a (fun x => { x with
                act := some { t with regs := regs, call := none }, data := putBytes x.data (6 * c.buffer) bs })
                (freeSlot y.req.id { d with done := d.done.erase y })
              closeMixed (appletPoint a (modLong t.handle (fun l => { l with units := l.units + 1 }) d))) s

-- Instructions (R656, R658)

def reg (t : Activation) (i : BitVec 4) : Word := wd t.regs i.toNat

def setReg (i : BitVec 4) (v : Word) (t : Activation) : Activation := { t with regs := setAt t.regs i.toNat v }

/-- One instruction of an applet that is the one at its PC: its fuel is charged first, then it executes (R656). -/
def appletInstr (a : AppletRef) (i : AppletInstr) (cost : Nat) (body : Applet → Activation → Dev → Dev) (s : State) : Out :=
  lift (fun d =>
    match executing d a with
    | none => d
    | some (x, t) =>
      if x.code[t.pc]? ≠ some (encodeApplet i) then d
      else if t.fuel < cost then endActivation a End.fuelOut 0 0 [] d
      else
        let t := { t with fuel := t.fuel - cost }
        body x t (setAct a t { d with power := { d.power with workAt := d.now } })) s

/-- Control passes to an index; outside the code the instruction faults and has no effect (R658). -/
def goTo (a : AppletRef) (x : Applet) (target : Nat) (t : Activation) (d : Dev) : Dev :=
  if target < x.code.length then setAct a { t with pc := target } d else endActivation a End.codeBounds 0 0 [] d

def fault (a : AppletRef) (code : Nat) (d : Dev) : Dev := endActivation a code 0 0 [] d

/-- An instruction that writes rd and falls through. -/
def toReg (a : AppletRef) (rd : BitVec 4) (f : Activation → Word) : Applet → Activation → Dev → Dev :=
  fun x t d => goTo a x (t.pc + 1) (setReg rd (f t) t) d

/-- An instruction that writes data memory and falls through. -/
def toData (a : AppletRef) (f : Applet → Activation → List Word) : Applet → Activation → Dev → Dev :=
  fun x t d =>
    if t.pc + 1 < x.code.length then
      modApplet a (fun y => { y with data := f x t }) (setAct a { t with pc := t.pc + 1 } d)
    else fault a End.codeBounds d

def sext10 (imm : BitVec 10) : Word := imm.signExtend 48
def sext14 (imm : BitVec 14) : Word := imm.signExtend 48
def zext10 (imm : BitVec 10) : Word := imm.setWidth 48

/-- PC + 1 + sext(offset), a 15-bit index. -/
def branchTarget (pc : Nat) (ofs : Int) : Nat := (((pc : Int) + 1 + ofs) % 32768).toNat

/-- A branch, taken or not. -/
def branch (a : AppletRef) (ofs : Int) (c : Activation → Bool) : Applet → Activation → Dev → Dev :=
  fun x t d => goTo a x (if c t then branchTarget t.pc ofs else t.pc + 1) t d

/-- A jump, with W15 the link. -/
def jump (a : AppletRef) (link : Bool) (target : Activation → Nat) : Applet → Activation → Dev → Dev :=
  fun x t d => goTo a x (target t) (if link then setReg 15 (word (t.pc + 1)) t else t) d

def b1 (b : Bool) : Word := if b then 1 else 0

/-- Shifts take rb mod 64; by 48 or more they give 0, or the sign (SHL, SHR, SAR). -/
def shlW (v : Word) (n : Nat) : Word := v <<< (n % 64)
def shrW (v : Word) (n : Nat) : Word := v >>> (n % 64)
def sarW (v : Word) (n : Nat) : Word := v.sshiftRight (n % 64)

def mulhuW (x y : Word) : Word := word (x.toNat * y.toNat / 2 ^ 48)
def divuW (x y : Word) : Word := if y = 0 then BitVec.allOnes 48 else x / y
def remuW (x y : Word) : Word := if y = 0 then x else x % y

/-- NOP. -/
def execNop (a : AppletRef) (s : State) : Out := appletInstr a .nop 1 (fun x t d => goTo a x (t.pc + 1) t d) s

/-- HALT (R659, R670): the output is copied now; an output outside data memory or longer than 4,096 bytes ends the activation with OUTPUT. -/
def execHalt (a : AppletRef) (s : State) : Out :=
  appletInstr a .halt 1 (fun x t d =>
    let n := (wd t.regs 2).toNat
    if decide (n ≤ 4096) && inData x (wd t.regs 1) n then
      endActivation a End.halt 0 n (bytesWords (dataBytes x (wd t.regs 1) n)) d
    else fault a End.output d) s

/-- TRAP. -/
def execTrap (a : AppletRef) (imm : BitVec 14) (s : State) : Out :=
  appletInstr a (.trap imm) 1 (fun _ _ d => endActivation a End.trap imm.toNat 0 [] d) s

/-- ADD. -/
def execAdd (a : AppletRef) (rd ra rb : BitVec 4) (s : State) : Out :=
  appletInstr a (.add rd ra rb) 1 (toReg a rd (fun t => reg t ra + reg t rb)) s

/-- SUB. -/
def execSub (a : AppletRef) (rd ra rb : BitVec 4) (s : State) : Out :=
  appletInstr a (.sub rd ra rb) 1 (toReg a rd (fun t => reg t ra - reg t rb)) s

/-- AND. -/
def execAnd (a : AppletRef) (rd ra rb : BitVec 4) (s : State) : Out :=
  appletInstr a (.and rd ra rb) 1 (toReg a rd (fun t => reg t ra &&& reg t rb)) s

/-- OR. -/
def execOr (a : AppletRef) (rd ra rb : BitVec 4) (s : State) : Out :=
  appletInstr a (.or rd ra rb) 1 (toReg a rd (fun t => reg t ra ||| reg t rb)) s

/-- XOR. -/
def execXor (a : AppletRef) (rd ra rb : BitVec 4) (s : State) : Out :=
  appletInstr a (.xor rd ra rb) 1 (toReg a rd (fun t => reg t ra ^^^ reg t rb)) s

/-- SHL. -/
def execShl (a : AppletRef) (rd ra rb : BitVec 4) (s : State) : Out :=
  appletInstr a (.shl rd ra rb) 1 (toReg a rd (fun t => shlW (reg t ra) (reg t rb).toNat)) s

/-- SHR. -/
def execShr (a : AppletRef) (rd ra rb : BitVec 4) (s : State) : Out :=
  appletInstr a (.shr rd ra rb) 1 (toReg a rd (fun t => shrW (reg t ra) (reg t rb).toNat)) s

/-- SAR. -/
def execSar (a : AppletRef) (rd ra rb : BitVec 4) (s : State) : Out :=
  appletInstr a (.sar rd ra rb) 1 (toReg a rd (fun t => sarW (reg t ra) (reg t rb).toNat)) s

/-- MUL. -/
def execMul (a : AppletRef) (rd ra rb : BitVec 4) (s : State) : Out :=
  appletInstr a (.mul rd ra rb) 2 (toReg a rd (fun t => reg t ra * reg t rb)) s

/-- MULHU. -/
def execMulhu (a : AppletRef) (rd ra rb : BitVec 4) (s : State) : Out :=
  appletInstr a (.mulhu rd ra rb) 2 (toReg a rd (fun t => mulhuW (reg t ra) (reg t rb))) s

/-- DIVU. -/
def execDivu (a : AppletRef) (rd ra rb : BitVec 4) (s : State) : Out :=
  appletInstr a (.divu rd ra rb) 8 (toReg a rd (fun t => divuW (reg t ra) (reg t rb))) s

/-- REMU. -/
def execRemu (a : AppletRef) (rd ra rb : BitVec 4) (s : State) : Out :=
  appletInstr a (.remu rd ra rb) 8 (toReg a rd (fun t => remuW (reg t ra) (reg t rb))) s

/-- SLT. -/
def execSlt (a : AppletRef) (rd ra rb : BitVec 4) (s : State) : Out :=
  appletInstr a (.slt rd ra rb) 1 (toReg a rd (fun t => b1 ((reg t ra).slt (reg t rb)))) s

/-- SLTU. -/
def execSltu (a : AppletRef) (rd ra rb : BitVec 4) (s : State) : Out :=
  appletInstr a (.sltu rd ra rb) 1 (toReg a rd (fun t => b1 ((reg t ra).ult (reg t rb)))) s

/-- ADDI. -/
def execAddi (a : AppletRef) (rd ra : BitVec 4) (imm : BitVec 10) (s : State) : Out :=
  appletInstr a (.addi rd ra imm) 1 (toReg a rd (fun t => reg t ra + sext10 imm)) s

/-- ANDI. -/
def execAndi (a : AppletRef) (rd ra : BitVec 4) (imm : BitVec 10) (s : State) : Out :=
  appletInstr a (.andi rd ra imm) 1 (toReg a rd (fun t => reg t ra &&& zext10 imm)) s

/-- ORI. -/
def execOri (a : AppletRef) (rd ra : BitVec 4) (imm : BitVec 10) (s : State) : Out :=
  appletInstr a (.ori rd ra imm) 1 (toReg a rd (fun t => reg t ra ||| zext10 imm)) s

/-- XORI. -/
def execXori (a : AppletRef) (rd ra : BitVec 4) (imm : BitVec 10) (s : State) : Out :=
  appletInstr a (.xori rd ra imm) 1 (toReg a rd (fun t => reg t ra ^^^ zext10 imm)) s

/-- SHLI. -/
def execShli (a : AppletRef) (rd ra : BitVec 4) (imm : BitVec 10) (s : State) : Out :=
  appletInstr a (.shli rd ra imm) 1 (toReg a rd (fun t => shlW (reg t ra) imm.toNat)) s

/-- SHRI. -/
def execShri (a : AppletRef) (rd ra : BitVec 4) (imm : BitVec 10) (s : State) : Out :=
  appletInstr a (.shri rd ra imm) 1 (toReg a rd (fun t => shrW (reg t ra) imm.toNat)) s

/-- SARI. -/
def execSari (a : AppletRef) (rd ra : BitVec 4) (imm : BitVec 10) (s : State) : Out :=
  appletInstr a (.sari rd ra imm) 1 (toReg a rd (fun t => sarW (reg t ra) imm.toNat)) s

/-- SLTI. -/
def execSlti (a : AppletRef) (rd ra : BitVec 4) (imm : BitVec 10) (s : State) : Out :=
  appletInstr a (.slti rd ra imm) 1 (toReg a rd (fun t => b1 ((reg t ra).slt (sext10 imm)))) s

/-- SLTIU. -/
def execSltiu (a : AppletRef) (rd ra : BitVec 4) (imm : BitVec 10) (s : State) : Out :=
  appletInstr a (.sltiu rd ra imm) 1 (toReg a rd (fun t => b1 ((reg t ra).ult (sext10 imm)))) s

/-- LDI. -/
def execLdi (a : AppletRef) (rd : BitVec 4) (imm : BitVec 14) (s : State) : Out :=
  appletInstr a (.ldi rd imm) 1 (toReg a rd (fun _ => sext14 imm)) s

/-- LDX. -/
def execLdx (a : AppletRef) (rd : BitVec 4) (imm : BitVec 14) (s : State) : Out :=
  appletInstr a (.ldx rd imm) 1 (toReg a rd (fun t => (reg t rd <<< 14) ||| imm.setWidth 48)) s

/-- LD. -/
def execLd (a : AppletRef) (rd ra : BitVec 4) (imm : BitVec 10) (s : State) : Out :=
  appletInstr a (.ld rd ra imm) 1 (fun x t d =>
    let n := (reg t ra + sext10 imm).toNat
    if n < x.data.length then toReg a rd (fun _ => wd x.data n) x t d else fault a End.dataBounds d) s

/-- ST. -/
def execSt (a : AppletRef) (rd ra : BitVec 4) (imm : BitVec 10) (s : State) : Out :=
  appletInstr a (.st rd ra imm) 1 (fun x t d =>
    let n := (reg t ra + sext10 imm).toNat
    if n < x.data.length then toData a (fun x t => setAt x.data n (reg t rd)) x t d else fault a End.dataBounds d) s

/-- LDB. -/
def execLdb (a : AppletRef) (rd ra : BitVec 4) (imm : BitVec 10) (s : State) : Out :=
  appletInstr a (.ldb rd ra imm) 1 (fun x t d =>
    let n := (reg t ra + sext10 imm).toNat
    if n < 6 * x.data.length then toReg a rd (fun _ => (getByte x.data n).setWidth 48) x t d else fault a End.dataBounds d) s

/-- STB. -/
def execStb (a : AppletRef) (rd ra : BitVec 4) (imm : BitVec 10) (s : State) : Out :=
  appletInstr a (.stb rd ra imm) 1 (fun x t d =>
    let n := (reg t ra + sext10 imm).toNat
    if n < 6 * x.data.length then toData a (fun x t => putBytes x.data n [(reg t rd).setWidth 8]) x t d
    else fault a End.dataBounds d) s

/-- BEQZ. -/
def execBeqz (a : AppletRef) (ra : BitVec 4) (ofs : BitVec 14) (s : State) : Out :=
  appletInstr a (.beqz ra ofs) 1 (branch a ofs.toInt (fun t => reg t ra == 0)) s

/-- BNEZ. -/
def execBnez (a : AppletRef) (ra : BitVec 4) (ofs : BitVec 14) (s : State) : Out :=
  appletInstr a (.bnez ra ofs) 1 (branch a ofs.toInt (fun t => reg t ra != 0)) s

/-- BLTZ. -/
def execBltz (a : AppletRef) (ra : BitVec 4) (ofs : BitVec 14) (s : State) : Out :=
  appletInstr a (.bltz ra ofs) 1 (branch a ofs.toInt (fun t => (reg t ra).slt 0)) s

/-- BGEZ. -/
def execBgez (a : AppletRef) (ra : BitVec 4) (ofs : BitVec 14) (s : State) : Out :=
  appletInstr a (.bgez ra ofs) 1 (branch a ofs.toInt (fun t => !(reg t ra).slt 0)) s

/-- BEQ. -/
def execBeq (a : AppletRef) (rd ra : BitVec 4) (ofs : BitVec 10) (s : State) : Out :=
  appletInstr a (.beq rd ra ofs) 1 (branch a ofs.toInt (fun t => reg t rd == reg t ra)) s

/-- BNE. -/
def execBne (a : AppletRef) (rd ra : BitVec 4) (ofs : BitVec 10) (s : State) : Out :=
  appletInstr a (.bne rd ra ofs) 1 (branch a ofs.toInt (fun t => reg t rd != reg t ra)) s

/-- BLT. -/
def execBlt (a : AppletRef) (rd ra : BitVec 4) (ofs : BitVec 10) (s : State) : Out :=
  appletInstr a (.blt rd ra ofs) 1 (branch a ofs.toInt (fun t => (reg t rd).slt (reg t ra))) s

/-- BLTU. -/
def execBltu (a : AppletRef) (rd ra : BitVec 4) (ofs : BitVec 10) (s : State) : Out :=
  appletInstr a (.bltu rd ra ofs) 1 (branch a ofs.toInt (fun t => (reg t rd).ult (reg t ra))) s

/-- JMP. -/
def execJmp (a : AppletRef) (target : BitVec 15) (s : State) : Out :=
  appletInstr a (.jmp target) 1 (jump a false (fun _ => target.toNat)) s

/-- CALL. -/
def execCall (a : AppletRef) (target : BitVec 15) (s : State) : Out :=
  appletInstr a (.call target) 1 (jump a true (fun _ => target.toNat)) s

/-- JR. -/
def execJr (a : AppletRef) (ra : BitVec 4) (s : State) : Out :=
  appletInstr a (.jr ra) 1 (jump a false (fun t => fld (reg t ra) 14 0)) s

/-- CALLR. -/
def execCallr (a : AppletRef) (ra : BitVec 4) (s : State) : Out :=
  appletInstr a (.callr ra) 1 (jump a true (fun t => fld (reg t ra) 14 0)) s

/-- SVC (R660): a block or buffer outside data memory ends the activation; else the command goes to SCH and the activation waits. -/
def execSvc (a : AppletRef) (opcode : BitVec 16) (s : State) : Out :=
  appletInstr a (.svc opcode) 16 (fun x t d =>
    if !(inData x (wd t.regs 1) (wd t.regs 2).toNat && inData x (wd t.regs 3) (wd t.regs 4).toNat) then fault a End.dataBounds d
    else if x.code.length ≤ t.pc + 1 then fault a End.codeBounds d
    else
      let r := serviceReq a x t opcode d
      let c : ServiceCall := { id := r.id, buffer := (wd t.regs 3).toNat, capacity := (wd t.regs 4).toNat }
      let d := setAct a { t with pc := t.pc + 1, call := some c } { d with nextId := d.nextId + 1 }
      let d := traceT (BitVec.ofNat 8 (0x10 + x.cluster)) 212 a.tenant (word a.tenant.toNat) (word opcode.toNat) d
      serviceAccepted r (wd t.regs 5) (chargeApplet a d)) s

/-- TICK. -/
def execTick (a : AppletRef) (rd : BitVec 4) (s : State) : Out :=
  appletInstr a (.tick rd) 1 (fun x t d => toReg a rd (fun _ => d.time.tick) x t d) s

/-- FUEL. -/
def execFuel (a : AppletRef) (rd : BitVec 4) (s : State) : Out :=
  appletInstr a (.fuel rd) 1 (toReg a rd (fun t => word t.fuel)) s

/-- RAND. -/
def execRand (a : AppletRef) (rd : BitVec 4) (s : State) : Out :=
  appletInstr a (.rand rd) 4 (fun x t d =>
    if t.pc + 1 < x.code.length then toReg a rd (fun _ => (draw d).1) x t (draw d).2 else fault a End.codeBounds d) s

end Sys2Proof.Machine
end

