-- ==== Sys2Proof/Machine/JournalCommands.lean ====
section
/-! DEFINITION. Class 0x07 (R472), the speed trace (R450-R453) and JOURNAL_FOLD (R461). -/
namespace Sys2Proof.Machine

/-- Owner, recorder or workshop (R472). -/
def isEvidenceTenant (r : Req) : Bool := r.tenant == 0 || r.tenant == 1 || r.tenant == 0xFE

def needEvidence (r : Req) : Res Unit := need (isEvidenceTenant r) St.policyRefused

-- JOURNAL_APPEND

/-- The issuer's right to a type (R425). -/
def mayAppend (d : Dev) (r : Req) : Bool :=
  let t := r.f 0 47 40
  ((t == 0x20 || t == 0x21 || t == 0x22) && r.tenant == 1) || (t == 0x70 && hasRight d r 3)

/-- The journal takes no more records: the status of the dimension that closed it (R425); a journal that FACTORY_TEST has not created
yet takes none either (DESIGN CHOICE, log 80). In PERSONALISED the recorder's legal-activity records are refused (R467). -/
def journalTakes (t : Nat) (d : Dev) : Res Unit := do
  need (!(d.lifecycle = .returned)) St.policyRefused
  need (!(d.lifecycle = .scorched)) St.scorched
  need (!(d.jrn.sealed || d.lifecycle = .departed)) St.departed
  need (d.jrn.created && !(d.lifecycle = .personalised && t != 0x70)) St.policyRefused

/-- Field values of an append and its payload, or none when one is out of range (R444, R474). -/
def appendFields (r : Req) (now : Nat) : Option (List Int × List Byte) :=
  let n (i : Nat) : Nat := (r.w i).toNat
  let v (i : Nat) : Int := (n i : Int)
  match r.f 0 47 40 with
  | 0x20 =>
    if r.sized 4 && decide (n 1 ≤ 1) && decide (n 2 ≤ 3) && decide (n 3 ≤ 1) then some ([v 1, v 2, v 3], []) else none
  | 0x21 =>
    let card : Nat := n 3 + n 4 * 2 ^ 48
    if r.sized 5 && decide (n 1 ≤ 1) && decide (n 2 ≤ 1) && card != 0 then some ([v 1, v 2, (card : Int)], []) else none
  | 0x22 =>
    if r.sized 5 && decide (n 1 ≤ 1) && decide (n 2 ≤ 3) && decide (n 3 < n 4) && decide (n 4 ≤ now) then
      some ([v 1, v 2, v 3, v 4], []) else none
  | 0x70 =>
    let m := n 3
    if decide (m ≤ 192) && n 1 == r.tenant.toNat && decide (n 2 < 65536) && decide (24 + m ≤ r.len) &&
        decide (r.len ≤ 24 + 6 * ceilDiv m 6) && ((wordsBytes (r.words.drop 4)).drop m).all (· == 0) then
      some ([v 1, v 2, v 3], r.bytesFrom 4 m) else none
  | _ => none

/-- JOURNAL_APPEND (R425, R445, R454-R457): phase 1 now, its reply at the commit. -/
def execJournalAppend (r : Req) (s : State) : Out :=
  hostCmd 0x0701 r (fun d => need (mayAppend d r) St.policyRefused) (fun d => do
    let t := r.f 0 47 40
    journalTakes t d
    param (onlyBits (r.w 0) [(47, 40)])
    match appendFields r d.now with
    | none => rej St.paramRange
    | some (vs, payload) => do
      let st := statOf d r.tenant
      let day := d.now / 353894400
      let used := if st.recDay == day then st.recCount else 0
      if t == 0x70 then need (decide (used < quotaOf d r recRecords)) St.quota else .ok ()
      if t == 0x70 then need (decide (mainFill d < 418)) St.journalPressure else .ok ()
      let tq := d.time.quality.code
      let vals := stamp d vs
      match appendAt t tq 0 vals (.bits (byteBits payload)) d with
      | (.closed, _) => rej St.policyRefused
      | (.summarised, _) =>
        okLater { d with nvm := { d.nvm with writes := d.nvm.writes ++ [{ req := some r, effect := .summary t vals }] } }
      | (.written main pos seq, d) =>
        let x : OpenRecord := { main := main, position := pos, rtype := t, fields := vals, seq := seq, tq := tq }
        let d := if t == 0x70 then modStat r.tenant (fun x => { x with recDay := day, recCount := used + 1 }) d else d
        let d := logAt Core.sec 85 (mkWord [(47, 40, if main then 1 else 2), (7, 0, t)]) seq false d
        okLater { d with nvm := { d.nvm with writes := d.nvm.writes ++ [{ req := some r, effect := .record x }] } }) s

-- Reads

def inUse (d : Dev) (lo n : Nat) : Nat :=
  ((List.range n).filter (fun i => indexUsed d (i + lo) && !d.jrn.retired.contains (i + lo))).length

def oldestMain (d : Dev) : Word :=
  match (d.jrn.segments.filter (·.main)).map (·.ordinal) with
  | o :: os => word (os.foldl min o)
  | [] => (d.jrn.main.cur.map (fun o => word o.ordinal)).getD (BitVec.allOnes 48)

/-- JOURNAL_STATUS; an ordinal that does not exist reads as all ones (log 24). -/
def execJournalStatus (r : Req) (s : State) : Out :=
  hostCmd 0x0702 r (fun _ => needEvidence r) (fun d => do
    param (r.len == 0)
    let flags := flag d.jrn.pressure + 2 * flag (decide (418 ≤ mainFill d)) + 4 * flag (decide (0 < inUse d 24 48))
      + 8 * flag (!d.jrn.summary.isEmpty) + 16 * flag d.jrn.sealed
    okWords d [d.jrn.main.nextSeq, d.jrn.tamper.nextSeq,
      mkWord [(47, 40, flags), (39, 30, inUse d 72 440), (29, 24, inUse d 24 48), (23, 16, inUse d 0 24), (15, 0, stubUnits d)],
      (d.jrn.main.cur.map (fun o => word o.ordinal)).getD (BitVec.allOnes 48),
      (d.jrn.receipted.map word).getD (BitVec.allOnes 48), oldestMain d]) s

/-- JOURNAL_HEAD (R437). -/
def execJournalHead (r : Req) (s : State) : Out :=
  hostCmd 0x0703 r (fun _ => needEvidence r) (fun d => do
    param (r.len == 0)
    okWords d (headBlock d ++ bytesWords (journalHead d))) s

/-- Content code and words of a closed segment, its stub or the span stub that covers it (R458, R462, R473). -/
def segmentContent (d : Dev) (main : Bool) (o : Nat) : Option (Nat × List Word) :=
  match d.jrn.segments.find? (fun s => s.main == main && s.ordinal == o) with
  | some s => some (1, s.header ++ s.body ++ s.trailer)
  | none =>
    if !main then none
    else
      (d.jrn.stubs.find? (fun s => decide (s.ordinal ≤ o) && decide (o ≤ s.lastOrdinal))).map
        (fun s => (if s.ordinal == s.lastOrdinal then 2 else 3, s.words))

/-- Every ordinal of a range is a closed segment or a folded one. -/
def rangeClosed (d : Dev) (main : Bool) (a b : Word) : Bool :=
  decide (a.toNat ≤ b.toNat) && decide (b.toNat < (d.stream main).nextOrdinal) &&
    (List.range (b.toNat + 1 - a.toNat)).all (fun i => (segmentContent d main (a.toNat + i)).isSome)

/-- JOURNAL_EXPORT, long (R458, R459, R474). -/
def execJournalExport (r : Req) (s : State) : Out :=
  hostCmd 0x0710 r (fun _ => needEvidence r) (fun d => do
    let st := r.f 0 47 40
    param (r.sized 4 && onlyBits (r.w 0) [(47, 40)] && (st == 1 || st == 2) && rangeClosed d (st == 1) (r.w 1) (r.w 2))
    let (k, d) ← useSlot r (r.w 3) (some Usage.encrypt) d
    param (k.ktype == 3)
    let (n, d) := draw d
    let a := (r.w 1).toNat
    let b := (r.w 2).toNat
    startLong r 1 (b + 1 - a)
      (.exportOf { main := st == 1, first := a, next := a, last := b, nonce := n, key := k.material, slot := k.ref }) [n] d) s

/-- One chunk of 779 words (R458, R459). -/
def exportChunk (d : Dev) (h : BitVec 24) (x : ExportOp) : List Word :=
  let c := (segmentContent d x.main x.next).getD (1, [])
  let head := [mkWord [(47, 40, 1), (39, 32, if x.main then 1 else 2), (31, 24, c.1), (23, 0, h.toNat)], word x.next,
    word x.chunk, x.nonce, d.shadow 2, 0, 0, 0]
  let e := gcmEnc x.key (wordsBytes [x.nonce, word x.chunk]) (wordsBytes head) (wordsBytes (fitW 768 c.2))
  head ++ bytesWords e.1 ++ fitW 3 (bytesWords e.2)

/-- Exports up to n chunks; each ends at a suspension point, and the last one ends the operation. -/
def exportChunks : Nat → BitVec 24 → Dev → List Word × Nat × Dev
  | 0, _, d => ([], 0, d)
  | n + 1, h, d =>
    match longAt d h with
    | none => ([], 0, d)
    | some l =>
      match l.data with
      | .exportOf x =>
        if !longRunning l then ([], 0, d)
        else
          let ws := exportChunk d h x
          let d := { d with jrn := { d.jrn with
            segments := modWhere (fun s => s.main == x.main && s.ordinal == x.next) (fun s => { s with exported := true }) d.jrn.segments } }
          let d := modLong h (fun l => { l with
            units := l.units + 1, data := .exportOf { x with next := x.next + 1, chunk := x.chunk + 1 } }) d
          let d := if x.next = x.last then finishLong h .done St.ok d else suspensionPoint h d
          let rest := exportChunks n h d
          (ws ++ rest.1, rest.2.1 + 1, rest.2.2)
      | _ => ([], 0, d)

/-- Most chunks one EXPORT_CHUNK may ask for on its port. -/
def chunkLimit (r : Req) : Nat :=
  match r.origin with
  | .port .b => 10
  | _ => 14

/-- EXPORT_CHUNK (R459); the reply that ends the operation is its final one (R268). -/
def execExportChunk (r : Req) (s : State) : Out :=
  hostCmd 0x0711 r (fun _ => needEvidence r) (fun d => do
    let n := r.f 0 47 40
    param (r.sized 1 && onlyBits (r.w 0) [(47, 40), (23, 0)] && decide (1 ≤ n) && decide (n ≤ chunkLimit r))
    let l ← needLong r (r.f 0 23 0) 1 d
    param (longRunning l)
    let x := exportChunks n l.handle d
    let ws := word x.2.1 :: x.1
    match longAt x.2.2 l.handle with
    | some m => if m.state = .done then .ok (x.2.2, .final m.gen ws (6 * ws.length)) else okWords x.2.2 ws
    | none => okWords x.2.2 ws) s

/-- SEGMENT_READ (R473): open in RETURNED and SCORCHED, else in an encrypted frame. -/
def execSegmentRead (r : Req) (s : State) : Out :=
  hostCmd 0x0712 r (fun d => do
      let free := d.lifecycle = .returned || d.lifecycle = .scorched
      need ((free && r.tenant == 0xFF) || isEvidenceTenant r) St.policyRefused
      need (free || r.enc) St.policyRefused) (fun d => do
    let st := r.f 0 47 40
    param (r.sized 2 && onlyBits (r.w 0) [(47, 40)] && (st == 1 || st == 2))
    match segmentContent d (st == 1) (r.w 1).toNat with
    | none => rej St.paramRange
    | some c => okWords d (word c.1 :: c.2)) s

-- Receipts (R460)

/-- Digest of a key equals a receipt-authority digest of the pattern, which is not zero for none (P64-P79). -/
def authorityKey (d : Dev) (at' : Nat) (key : List Byte) : Bool :=
  let x := wordsBytes (slice d.pat.image at' 8)
  !x.all (· == 0) && sha384 key == x

/-- "KV4856RC". -/
def receiptTag : List Byte := ascii [0x4B, 0x56, 0x34, 0x38, 0x35, 0x36, 0x52, 0x43]

/-- The signatures the receipt policy requires are present and verify. -/
def receiptSigned (d : Dev) (r : Req) : Bool :=
  let has (b : Nat) : Bool := bitOf (r.w 14) b
  let policy := d.cfg 13 37 36
  let msg := receiptTag ++ wordsBytes (fitW 14 r.words)
  let k1 := 15
  let k2 := k1 + (if has 0 then 16 else 0)
  let s1 := k2 + (if has 1 then 326 else 0)
  let s2 := s1 + (if has 0 then 16 else 0)
  let ecKey := r.bytesFrom k1 96
  let pqKey := r.bytesFrom k2 1952
  let ec := has 0 && authorityKey d 64 ecKey && p384.pointOk ecKey && sigHolds 2 ecKey (sha384 msg) (r.bytesFrom s1 96) [] 0
  let pq := has 1 && authorityKey d 72 pqKey && dsaFormed (r.bytesFrom s2 3309) &&
    sigHolds 9 pqKey msg (r.bytesFrom s2 3309) [] 0
  policy != 0 && (policy % 2 == 0 || ec) && (policy / 2 == 0 || pq)

/-- The range has been exported whole: segments by their mark, folded ones by having been folded. -/
def rangeExported (d : Dev) (main : Bool) (a b : Nat) : Bool :=
  (List.range (b + 1 - a)).all (fun i =>
    match d.jrn.segments.find? (fun s => s.main == main && s.ordinal == a + i) with
    | some s => s.exported
    | none => true)

/-- The device's trailer of a closed ordinal. -/
def trailerOf (d : Dev) (main : Bool) (o : Nat) : List Word :=
  match segmentContent d main o with
  | some (1, ws) => ws.drop 760
  | some (2, ws) => ws.drop 8
  | some (_, ws) => slice ws 16 8
  | none => []

/-- RECEIPT_SUBMIT (R460). -/
def execReceiptSubmit (r : Req) (s : State) : Out :=
  hostCmd 0x0720 r (fun _ => needOwner r) (fun d => do
    let st := r.f 0 39 32
    let main := st == 1
    let n := 15 + (if bitOf (r.w 14) 0 then 32 else 0) + (if bitOf (r.w 14) 1 then 878 else 0)
    param (r.sized n && onlyBits (r.w 14) [(1, 0)] && onlyBits (r.w 0) [(47, 32)])
    param (r.f 0 47 40 == 1 && (st == 1 || st == 2))
    let a := (r.w 1).toNat
    let b := (r.w 2).toNat
    let old := if main then d.jrn.receipted else d.jrn.receiptedTamper
    untilEngine d (do
      need (receiptSigned d r && r.w 11 == d.shadow 2 && r.w 12 == d.shadow 3 && decide (a ≤ (old.map (· + 1)).getD 0) &&
        rangeClosed d main (r.w 1) (r.w 2) && rangeExported d main a b && slice r.words 3 8 == trailerOf d main b) St.receiptInvalid
      let top := some (max b (old.getD 0))
      let d := if main then { d with jrn := { d.jrn with receipted := top } } else { d with jrn := { d.jrn with receiptedTamper := top } }
      okNone (secRecord 0x41 [st, a, b] d))) s

-- Speed trace (R450-R453)

def vertexGap (v : BitVec 24) : Nat := v.toNat / 4096

def vertexSpeed (v : BitVec 24) : Nat := v.toNat % 4096

def mkVertex (gap speed : Nat) : BitVec 24 := BitVec.ofNat 24 (gap * 4096 + speed)

/-- Samples that the ring spans after its first vertex. -/
def traceSpan (vs : List (BitVec 24)) : Nat := ((vs.drop 1).map vertexGap).foldl (· + ·) 0

/-- Oldest vertices go once the ring spans 24 hours or holds 16,384 (R450, R452). -/
def trimTrace : Nat → List (BitVec 24) → List (BitVec 24)
  | 0, vs => vs
  | n + 1, vs => if 86400 < traceSpan vs ∨ 16384 < vs.length then trimTrace n (vs.drop 1) else vs

/-- A sample joins the ring: it lengthens the last vertex of a run of equal speeds, or is a vertex of its own, so that every
sample is reconstructed exactly (R451; the choice of vertices is the model's, log 25). -/
def addSample (speed : Nat) (vs : List (BitVec 24)) : List (BitVec 24) :=
  let z := vs.getLastD 0
  let y := vs.dropLast.getLastD 0
  if 2 ≤ vs.length ∧ vertexSpeed z = speed ∧ vertexSpeed y = speed ∧ vertexGap z < 4095 then
    vs.dropLast ++ [mkVertex (vertexGap z + 1) speed]
  else vs ++ [mkVertex 1 speed]

/-- Vertices for a gap of n samples without data. -/
def noData (n : Nat) : List (BitVec 24) :=
  List.replicate (min 22 (n / 4095)) (mkVertex 4095 0xFFF) ++ (if n % 4095 = 0 then [] else [mkVertex (n % 4095) 0xFFF])

/-- TRACE_SAMPLE: at each tick multiple of 4,096 that SEC sees, in units of 0.25 km/h, nearest (R450); multiples that a tick advance
has passed over hold no data (log 25). -/
def execTraceSample (s : State) : Out :=
  lift (fun d =>
    let at' := d.now / 4096
    if d.boot.running && decide (d.jrn.traceAt < at') then
      let v := min 4094 ((d.dist.speed + 32) / 64)
      let vs := d.jrn.vertices ++ noData (at' - d.jrn.traceAt - 1)
      { d with jrn := { d.jrn with traceAt := at', vertices := trimTrace (vs.length + 1) (addSample v vs) } }
    else d) s

/-- The copy of the ring in the health store; PF_N lets no NVM write start (R46). -/
def mirrorTrace (d : Dev) : Dev :=
  if d.power.pfn then d else healthWrite 1 { d with mgmt := { d.mgmt with traceCopy := d.jrn.vertices, traceCopyTick := d.jrn.traceAt } }

/-- TRACE_MIRROR: every 2,457,600 ticks (R453). -/
def execTraceMirror (s : State) : Out :=
  lift (fun d =>
    if d.boot.running && !d.power.pfn && decide (d.jrn.mirrorAt < d.now / 2457600) then mirrorTrace { d with jrn := { d.jrn with mirrorAt := d.now / 2457600 } } else d) s

/-- At start the ring comes back from its copy, with the gap until now as no-data vertices (R453). -/
def restoreTrace (d : Dev) : Dev :=
  let gap := d.now / 4096 - d.mgmt.traceCopyTick
  let vs := if d.mgmt.traceCopy.isEmpty then [] else d.mgmt.traceCopy ++ noData gap
  { d with jrn := { d.jrn with vertices := trimTrace vs.length vs, traceAt := d.now / 4096 } }

/-- TRACE_READ. -/
def execTraceRead (r : Req) (s : State) : Out :=
  hostCmd 0x0730 r (fun _ => needEvidence r) (fun d => do
    param (r.sized 1 && onlyBits (r.w 0) [(15, 0)])
    let vs := d.jrn.vertices
    let out := slice vs (r.f 0 15 0) 4096
    let pairs := chunksOf 2 (ceilDiv out.length 2) out
    okWords d ([word ((d.jrn.traceAt - traceSpan vs) * 4096), mkWord [(31, 16, out.length), (15, 0, vs.length)]]
      ++ pairs.map (fun p => mkWord [(47, 24, (p.getD 0 0).toNat), (23, 0, (p.getD 1 0).toNat)]))) s

/-- JOURNAL_FOLD: once every 2^22 ticks (R461), while SEC writes the journal. -/
def execJournalFold (s : State) : Out :=
  lift (fun d =>
    if d.boot.running && !d.power.pfn && journalOpen d && decide (d.jrn.foldAt < d.now / 2 ^ 22) then foldAll { d with jrn := { d.jrn with foldAt := d.now / 2 ^ 22 } } else d) s

end Sys2Proof.Machine
end

