-- ==== Sys2Proof/Machine/TimeDist.lean ====
section
/-! DEFINITION. Time and distance (03_time_and_distance): the tick, clock checks, adjustments, counters, pulses and speed gates. -/
namespace Sys2Proof.Machine

-- Clock checks (R68-R73)

/-- Rows of the clock verdicts table as the TAMPER record's VALUE numbers them (R513). -/
def Verdict.row : Verdict → Nat
  | .noFault => 1
  | .stopped => 2
  | .crystalWrong => 3
  | .rcFaulty => 4
  | .pllFaulty => 5
  | .multiple => 6

/-- The verdict of the latest results of every check (R69). -/
def verdictOf (t : TimeState) : Verdict :=
  if t.stopped then .stopped
  else if t.c1Ok && t.c2Ok && t.c3Ok then .noFault
  else if !t.c1Ok && t.c2Ok && !t.c3Ok then .crystalWrong
  else if !t.c1Ok && t.c2Ok && t.c3Ok then .rcFaulty
  else if t.c1Ok && !t.c2Ok then .pllFaulty
  else .multiple

/-- Rows whose tick source is RC. -/
def Verdict.onRc (v : Verdict) : Bool := v = .stopped || v = .crystalWrong || v = .multiple

/-- Rows whose core clock is the RC fallback. -/
def Verdict.coreRc (v : Verdict) : Bool := v = .stopped || v = .crystalWrong || v = .multiple || v = .pllFaulty

/-- The quality of a tick from RC: UNCERTAIN (R69, R71); in BLANK it stays UNCONFIRMED (R27). -/
def rcQuality (d : Dev) : Quality := if d.lifecycle = .blank then .unconfirmed else .uncertain

/-- The tick source passes to RC: the division sequence starts afresh. -/
def toRc (q : Quality) (t : TimeState) : TimeState := { t with onRc := true, rcPhase := if t.onRc then t.rcPhase else 0, quality := q }

/-- Deadlines that wait scale with the core clock when it changes between the PLL and the fallback (R70). -/
def rescale (toFallback : Bool) (d : Dev) : Dev :=
  let f (r : Req) : Req :=
    let left := r.deadline - d.now
    { r with deadline := d.now + (if toFallback then ceilDiv (left * 196608) 171875 else left * 171875 / 196608) }
  { d with cmds := d.cmds.map (fun r => if r.deadline < 2 ^ 48 then f r else r) }

/-- C1 and C2 pass, and the crystal oscillates. -/
def crystalPasses (t : TimeState) : Bool := t.c1Ok && t.c2Ok && !t.stopped

/-- Acts on the verdict of the latest results; a new row other than "no fault" raises the clock source (R69). A tick source that went to
RC because the crystal stopped comes back when the stop detector clears and the RC oscillator itself is the faulty one, for no C1 can
pass then (R111). -/
def judgeClock (d : Dev) : Dev :=
  let v := verdictOf d.time
  let t := { d.time with verdict := v, coreRc := v.coreRc }
  let t := if v.onRc then toRc (rcQuality d) t
    else if v = .rcFaulty && d.time.verdict = .stopped then { t with onRc := false, rcPhase := 0 } else t
  let t := { t with passSince := if crystalPasses t then (if t.passSince.isSome then t.passSince else some d.now) else none }
  let d' := { d with time := t }
  let d' := if v.coreRc == d.time.coreRc then d' else rescale v.coreRc d'
  if v ≠ d.time.verdict ∧ v ≠ .noFault then tamperEvent Src.clock v.row d' else d'

/-- States in which the checks of R68 run. -/
def clockChecked (d : Dev) : Bool := d.power.state = .active || d.power.state = .idle || d.power.state = .standby

/-- C1: RC cycles over 4,096 crystal periods. -/
def c1Passes (n : Nat) : Bool := decide (850000 ≤ n) && decide (n ≤ 1150000)

/-- C2: core cycles over 8 crystal periods, with the lock indicator asserted. -/
def c2Passes (x : Nat × Bool) : Bool := decide (49150 ≤ x.1) && decide (x.1 ≤ 49154) && x.2

/-- C3: the frequency in kHz of the VCO control word. -/
def c3Passes (khz : Nat) : Bool := decide (160000 ≤ khz) && decide (khz ≤ 245000)

/-- CLOCK_CHECK (R68): each check that reports is judged; the stop detector works in every state with the always-on domain, the others
in the powered ones (R73) (DEDUCED, log 26). -/
def execClockCheck (c : ClockResult) (s : State) : Out :=
  lift (fun d =>
    if d.power.state = .off then d
    else
      let t := { d.time with stopped := (c.oscillates.map (fun b => !b)).getD d.time.stopped }
      if !clockChecked d then
        if c.oscillates = some false then judgeClock { d with time := t } else { d with time := t }
      else
        judgeClock { d with time := { t with
          c1Count := c.c1.getD t.c1Count, c1Ok := (c.c1.map c1Passes).getD t.c1Ok
          c2Ok := (c.c2.map c2Passes).getD t.c2Ok, c3Ok := (c.c3.map c3Passes).getD t.c3Ok } }) s

/-- CRYSTAL_STOP (R69, R73). -/
def execCrystalStop (s : State) : Out :=
  lift (fun d => if d.power.state = .off then d else judgeClock { d with time := { d.time with stopped := true } }) s

/-- CRYSTAL_RETURN: C1 and C2 have passed for 4,096 crystal periods, 512 ticks (R72); quality stays UNCERTAIN. -/
def execCrystalReturn (s : State) : Out :=
  lift (fun d =>
    match d.time.passSince with
    | some t => if clockChecked d && d.time.onRc && !d.time.stopped && decide (t + 512 ≤ d.now) then
        { d with time := { d.time with onRc := false, rcPhase := 0 } } else d
    | none => d) s

/-- RC cycles of the tick in the division sequence of R71. -/
def rcDivision (phase : Nat) : Nat := if phase = 7 then 1954 else 1953

/-- Time in each power state, for the EXTREMES section of the health store. -/
def countState (d : Dev) : Dev :=
  let i := match d.power.state with
    | .active => 0
    | .idle => 1
    | .standby => 2
    | .hibernate => 3
    | .backup => 4
    | _ => 5
  { d with mgmt := { d.mgmt with stateTicks := modAt d.mgmt.stateTicks i (· + 1) } }

/-- SCH's check of the held counts (R283): a tenant whose count differs from its entries is not admitted, and the mismatch is
journalled; the next check, a tick of 0.25 ms later, recounts (DESIGN CHOICE, log 65). -/
def recountHeld (d : Dev) : Dev :=
  let entries (t : Byte) : Nat := heldBy d (· == t)
  let bad := (d.sched.stats.filter (fun x => x.held != entries x.tenant)).map (·.tenant)
  let again := d.sched.mismatched
  let d := { d with sched := { d.sched with
    mismatched := bad.filter (fun t => !again.contains t)
    stats := d.sched.stats.map (fun x => if again.contains x.tenant then { x with held := entries x.tenant } else x) } }
  if (bad.filter (fun t => !again.contains t)).isEmpty then d else fwEvent 3 7 (Config.faultCode 18).toNat (raiseFault 18 d)

/-- LEGAL_TICK (R67, R71): the counter runs while VDD or VBAT is present (DESIGN CHOICE, log 42). -/
def execLegalTick (s : State) : Out :=
  lift (fun d =>
    if d.power.state = .off then d
    else
      let t := d.time
      let t := { t with tick := t.tick + 1 }
      let t := if t.onRc then { t with rcTicks := t.rcTicks + 1, rcPhase := (t.rcPhase + 1) % 8, quality := rcQuality d } else t
      let d := countState { d with time := t }
      let d := if d.boot.running && d.now % 4 == 0 then newBucket d else d
      closeMixed (recountHeld d)) s

/-- Index of the checkpoint period that the tick has reached the midpoint of (R75). -/
def ckptIndex (tick : Nat) : Nat := (tick + 2 ^ 21) / 2 ^ 22

/-- Two copies of a checkpoint, in the next two rows of the rotation (R75). -/
def writeCheckpoint (x : Checkpoint) (t : TimeState) : TimeState :=
  { t with
    ckptRows := setAt (setAt t.ckptRows (t.ckptRow % 16) (some x)) ((t.ckptRow + 1) % 16) (some x), ckptRow := (t.ckptRow + 2) % 16 }

/-- TICK_CHECKPOINT (R75, R720): two copies in rotation; a failed attempt is repeated every 4,096 ticks, and reported after 2^20
(DEDUCED, log 60). -/
def execTickCheckpoint (ok : Bool) (s : State) : Out :=
  lift (fun d =>
    let t := d.time
    if !d.boot.running || ckptIndex d.now ≤ t.ckptAt || (t.ckptDue.map (fun x => decide (d.now < x))).getD false then d
    else if ok && !d.power.pfn then
      { d with time := { writeCheckpoint { value := (d.now / 2 ^ 22 + 1) * 2 ^ 22, pulses := d.dist.pulses.toNat } t with
        ckptAt := ckptIndex d.now, ckptDue := none, ckptFirst := none, ckptFault := false } }
    else
      let first := t.ckptFirst.getD d.now
      let late := decide (first + 2 ^ 20 ≤ d.now)
      let d' := { d with time := { t with ckptFirst := some first, ckptDue := some (d.now + 4096), ckptFault := t.ckptFault || late } }
      if late && !t.ckptFault then raiseFault 3 d' else d') s

/-- BUCKET_REFILL: one token per 512 ticks, up to 256 (R103). -/
def execBucketRefill (s : State) : Out :=
  lift (fun d =>
    if d.time.bucketAt < d.now / 512 then
      { d with time := { d.time with
        bucket := min 256 (d.time.bucket + (d.now / 512 - d.time.bucketAt)), bucketAt := d.now / 512 } }
    else d) s

-- Tick alarms (R118)

/-- A tenant's alarm fires: attention on both ports, the tenant's bit, the alarm cleared. -/
def fireAlarm (t : Byte) (d : Dev) : Dev :=
  let d := if d.power.state = .standby then { d with power := { d.power with state := .active } } else d
  attnBoth Attn.tickAlarm { d with time := { d.time with
    alarms := d.time.alarms.filter (fun a => a.1 != t), fired := if d.time.fired.contains t then d.time.fired else d.time.fired ++ [t] } }

/-- TICK_ALARM; in HIBERNATE the alarm stays until it has woken the device. -/
def execTickAlarm (t : Byte) (s : State) : Out :=
  lift (fun d =>
    if d.boot.running && d.time.alarms.any (fun a => a.1 == t && decide (a.2 ≤ d.now)) then fireAlarm t d else d) s

/-- TIME_ALARM_SET. -/
def execTimeAlarmSet (r : Req) (s : State) : Out :=
  hostCmd 0x0806 r (fun _ => needTenant r) (fun d => do
    param (r.sized 1)
    let a := (r.w 0).toNat
    let d := { d with time := { d.time with alarms := d.time.alarms.filter (fun x => x.1 != r.tenant) } }
    if a == 0 then okNone d
    else if a ≤ d.now then okNone (fireAlarm r.tenant d)
    else okNone { d with time := { d.time with alarms := d.time.alarms ++ [(r.tenant, a)] } }) s

-- Adjusting time (R74, R79-R88, R114)

/-- Magnitudes of the counted adjustments of the last 7 days (R80). -/
def budgetUsed (d : Dev) : Nat :=
  ((d.time.adjusts.filter (fun a => decide (d.now < a.1 + 2477260800))).map (·.2)).foldl (· + ·) 0

/-- Leap-second adjustments of the last 365 days that did not count (R81). -/
def leapsUsed (d : Dev) : Nat := (d.time.leaps.filter (fun t => decide (d.now < t + 129171456000))).length

def offsetOk (x : Int) : Bool := decide (x.natAbs ≤ 2 ^ 40)

/-- An offset write is under way; SEC executes the next when it has ended. -/
def offsetPending (d : Dev) : Bool := d.nvm.writes.any (fun w => match w.effect with
  | .offset _ _ _ _ => true
  | _ => false)

/-- Starts the two-phase commit of a new offset (R84). -/
def commitOffset (r : Req) (x : Int) (path : Nat) (confirm : Bool) (d : Dev) : Res (Dev × Done) :=
  okLater { d with nvm := { d.nvm with writes := d.nvm.writes ++ [{ req := some r, effect := .offset (intWord x) path confirm r.tenant }] } }

/-- R107. -/
def timeAllowed (d : Dev) : Res Unit :=
  need (!(d.succ.state == 1 || d.lifecycle = .departed || d.lifecycle = .scorched)) St.policyRefused

/-- TIME_READ (R77, R78, R80). -/
def execTimeRead (r : Req) (s : State) : Out :=
  hostCmd 0x0801 r (fun _ => needTenant r) (fun d => do
    param (r.len == 0)
    let t := d.time
    okWords { d with time := { t with fired := t.fired.filter (· != r.tenant) } }
      [t.tick, t.offset, mkWord [(47, 46, t.quality.code), (39, 16, t.corrections.toNat), (0, 0, flag (t.fired.contains r.tenant))],
        if r.tenant == 1 then mkWord [(47, 24, 245760 - budgetUsed d)] else 0, word (uncertainty t)]) s

/-- TIME_ADJUST (R80-R82, R84, R107). -/
def execTimeAdjust (r : Req) (s : State) : Out :=
  hostCmd 0x0802 r (fun _ => need (r.tenant == 1) St.policyRefused) (fun d => do
    timeAllowed d
    let delta := sInt (r.w 0)
    let leap := bitOf (r.w 1) 0
    let x := sInt d.time.offset + delta
    param (r.sized 2 && onlyBits (r.w 1) [(0, 0)] && (!leap || delta.natAbs == 4096) && offsetOk x)
    let free := leap && decide (leapsUsed d < 2)
    need (free || delta == 0 || decide (budgetUsed d + delta.natAbs ≤ 245760)) St.policyRefused
    if delta == 0 then okWords d [d.time.offset]
    else if offsetPending d then .ok (d, .wait)
    else commitOffset r x (if free then 1 else 0) false d) s

/-- TIME_AUTH_CHALLENGE (R87). -/
def execTimeAuthChallenge (r : Req) (s : State) : Out :=
  hostCmd 0x0803 r (fun _ => need (r.tenant == 1 || r.tenant == 0xFE) St.policyRefused) (fun d => do
    param (r.len == 0)
    let (a, d) := draw d
    let (b, d) := draw d
    okWords { d with time := { d.time with nonce := some (a, b, d.now + 2457600) } } [a, b]) s

/-- The time-authority key's public point, from the slot of tenant 0xFE that the pattern names (R83, P12). -/
def timeAuthority (d : Dev) : Option (List Byte) :=
  let h := wd d.pat.image 12
  ((d.keys.slots.find? (fun s => s.tenant == 0xFE && s.handle == h && h != 0 && s.ktype == 0x10 && !s.writing)).bind (slotMaterial d)).map
    (publicKey 0x10)

/-- "KV4856TA". -/
def timeAuthTag : List Byte := ascii [0x4B, 0x56, 0x34, 0x38, 0x35, 0x36, 0x54, 0x41]

/-- The authorisation block is good (R86, R88); the nonce holds to the last tick of its 10 minutes (R87; DESIGN CHOICE, log 73). -/
def authOk (d : Dev) (r : Req) : Bool :=
  (match d.time.nonce, timeAuthority d with
   | some (a, b, e), some k => r.w 0 == a && r.w 1 == b && decide (d.now ≤ e) && decide (d.now ≤ (r.w 3).toNat) &&
       rsIn (r.bytesFrom 4 64) && sigHolds 1 k (sha256 (timeAuthTag ++ wordsBytes (fitW 4 r.words))) (r.bytesFrom 4 64) [] 0
   | _, _ => false)
where
  rsIn (sig : List Byte) : Bool := p256.scalarOk (beNat (sig.take 32)) && p256.scalarOk (beNat (sig.drop 32))

/-- TIME_AUTH_ADJUST (R83, R84, R86-R88): the nonce goes whatever the outcome. -/
def execTimeAuthAdjust (r : Req) (s : State) : Out :=
  lift (fun d =>
    if r ∈ d.cmds ∧ r.opcode.toNat = 0x0804 then
      let old := d.time.nonce
      let go := serve r (fun _ => need (r.tenant == 1 || r.tenant == 0xFE) St.policyRefused) (fun d => do
        param (r.sized 15 && (r.bytesFrom 4 66).drop 64 == [0, 0])
        let x := sInt d.time.offset + sInt (r.w 2)
        if offsetPending d then .ok (d, .wait)
        else untilEngine d (do
          need (authOk d r) St.authFail
          param (offsetOk x)
          if r.w 2 == 0 then okWords d [d.time.offset] else commitOffset r x 3 false d)) d
      let waits := go.cmds.contains r
      let named := (r.tenant == 1 || r.tenant == 0xFE) && decide (d.now ≤ r.deadline) && (dims r d).isOk
      { go with time := { go.time with nonce := if waits || !named then old else none } }
    else d) s

/-- CONFIRMED again: the RC ticks since the last confirmation start at zero (R78, R79). -/
def confirmTime (d : Dev) : Dev := { d with time := { d.time with quality := .confirmed, rcTicks := 0 } }

/-- TIME_ADJUST record (R84) and, with it, the correction count. -/
def timeRecord (path : Nat) (tenant : Byte) (old new : Word) (step : Nat) (d : Dev) : Dev :=
  let p := secAppend 0x32 (stamp d [(path : Int), (tenant.toNat : Int), sInt old, sInt new, (step : Int)]) (.bits []) d
  if p.1 then { p.2 with time := { p.2.time with corrections := p.2.time.corrections + 1 } } else p.2

/-- TIME_CONFIRM (R79, R114, R115). -/
def execTimeConfirm (r : Req) (s : State) : Out :=
  hostCmd 0x0805 r (fun _ => need (r.tenant == 1) St.policyRefused) (fun d => do
    timeAllowed d
    param (r.sized 2 && onlyBits (r.w 1) [(0, 0)])
    let apply := bitOf (r.w 1) 0
    let off := sInt d.time.offset
    let x : Int := (r.w 0).toNat - (d.now + off)
    param (decide (-(2 : Int) ^ 47 ≤ x) && decide (x < (2 : Int) ^ 47))
    let report := okWords d [intWord x]
    match d.time.quality with
    | .confirmed => report
    | .unconfirmed =>
      if !apply then report
      else do
        need (!d.time.onRc) St.policyRefused
        if 0 ≤ x then do
          param (decide (d.now + x.toNat < 2 ^ 48))
          if x == 0 then okWords (confirmTime d) [intWord x]
          else
            let d := confirmTime (skipBuckets d.now (d.now + x.toNat) { d with time := { d.time with tick := word (d.now + x.toNat) } })
            okWords (timeRecord 4 r.tenant d.time.offset d.time.offset x.toNat d) [intWord x]
        else do
          param (offsetOk (off + x))
          if offsetPending d then .ok (d, .wait)
          else commitOffset r (off + x) 2 true d
    | .uncertain =>
      if decide (x.natAbs ≤ uncertainty d.time) && !d.time.onRc then
        if x == 0 then okWords (confirmTime d) [intWord x]
        else if !apply then report
        else do
          param (offsetOk (off + x))
          if offsetPending d then .ok (d, .wait)
          else commitOffset r (off + x) 2 true d
      else if apply then rej St.policyRefused
      else report) s

/-- What a committed offset changes (R80-R85): the value, and the adjustment or leap it counts as. -/
def applyOffset (new : Word) (path : Nat) (d : Dev) : Dev :=
  let x := sInt new - sInt d.time.offset
  let t := { d.time with offset := new }
  { d with time :=
    if path == 0 then { t with adjusts := t.adjusts.filter (fun a => decide (d.now < a.1 + 2477260800)) ++ [(d.now, x.natAbs)] }
    else if path == 1 then { t with leaps := t.leaps.filter (fun a => decide (d.now < a + 129171456000)) ++ [d.now] }
    else t }

/-- The offset's commit has ended (R84, R85): the record follows it, then the change takes effect, for a command that waits or, after
a start, for none. A confirmation does not make the time CONFIRMED when RC has become its source meanwhile (R79; DESIGN CHOICE,
log 67). -/
def offsetCommitted (req : Option Req) (tenant : Byte) (new : Word) (path : Nat) (confirm ok : Bool) (d : Dev) : Dev :=
  let answer (st : Byte) (ws : List Word) (d : Dev) : Dev :=
    match req with
    | some r => complete r st ws (6 * ws.length) d
    | none => d
  if !ok then answer St.internalFault [] d
  else
    let old := d.time.offset
    let d := applyOffset new path (timeRecord path tenant old new 0 d)
    let d := if confirm && !d.time.onRc then confirmTime d else d
    answer St.ok [if confirm then intWord (sInt new - sInt old) else new] d

-- Pulses, speed, motion (R89-R98, R448, R449)

/-- W' in samples (R719). -/
def samplesOf (us : Nat) : Nat := ceilDiv (us * 1048576) 1000000

/-- The width of a level in its sample periods that passes the filter now (R57, R719). -/
def filterWidth (d : Dev) : Nat :=
  if d.power.state = .hibernate then max 2 (ceilDiv (d.cfg 10 32 25 * 32768) 1000000) else d.dist.wPrime

/-- MOVING or STANDSTILL, with its record (R93); while SEC does not run the record waits with its stamp (R158). -/
def setMotion (m : Bool) (d : Dev) : Dev :=
  let d := { d with dist := { d.dist with moving := m } }
  if d.boot.running then secRecord 0x23 [flag m] d
  else if journalOpen d then deferRecord 0x23 (stamp d [(flag m : Int)]) d
  else d

/-- Counts a pulse in its 0.25 s gate; the two newest gates that saw one are kept (R94). -/
def countGate (g : Nat) (l : List (Nat × Nat)) : List (Nat × Nat) :=
  match l with
  | x :: rest => if x.1 = g then (g, x.2 + 1) :: rest else [(g, 1), x]
  | [] => [(g, 1)]

/-- SPD_PULSE (R89): counted in every state but BACKUP; `at'` is the sample period at which the high level passed. The first pulse
after STANDSTILL sets MOVING (R93), in HIBERNATE too, where the speed is not measured. -/
def execSpdPulse (low high at' : Nat) (s : State) : Out :=
  lift (fun d =>
    if d.power.state = .off || d.power.state = .backup || decide (low < filterWidth d) || decide (high < filterWidth d) then d
    else
      let x := d.dist
      let d := { d with dist := { x with pulses := x.pulses + 1 } }
      let was := x.moving
      let d := if was then d else setMotion true d
      if !clockChecked d then d
      else
        let d := if d.power.state = .standby then { d with power := { d.power with state := .active } } else d
        { d with dist := { d.dist with
          gatePulses := countGate (d.now / 1024) d.dist.gatePulses
          previous := if was then x.last else none, last := some at'
          recent := at' :: x.recent.filter (fun t => decide (at' < t + 1048576)) } }) s

/-- The filtered speed of R92 in 1/256 km/h at a sample period. With two or more pulses in the last second its formula holds, although a
standstill timeout under 1 s may have passed between them (DESIGN CHOICE, log 74). -/
def speedAt (x : DistState) (now : Nat) : Nat :=
  let inSec := x.recent.filter (fun t => decide (now < t + 1048576))
  let n := inSec.length
  let ratio (m span : Nat) : Nat := if span = 0 then 0 else m * 1048576 * 3600 * 256 / (x.k * span)
  if !x.moving then 0
  else if 2 ≤ n then ratio (n - 1) (inSec.headD 0 - inSec.getLastD 0)
  else
    match x.last, x.previous with
    | some a, some b => ratio 1 (a - b)
    | _, _ => 0

/-- Units of 0.25 km/h, nearest (R444, CONFLICT). -/
def quarters (v : Nat) : Nat := (v + 32) / 64

/-- Pulses of the gate that ended at the gate boundary g. -/
def pulsesOf (x : DistState) (g : Nat) : Nat := ((x.gatePulses.find? (fun y => y.1 + 1 == g)).map (·.2)).getD 0

/-- The plausibility rule of a gate (R94): the pulses of the 0.25 s that end at it; gates are consecutive when none between them was
missed. -/
def plausibility (g : Nat) (consecutive : Bool) (d : Dev) : Dev :=
  let rate := pulsesOf d.dist g * 4
  let late := decide (d.cfg 11 47 32 < rate)
  let above := if consecutive then d.dist.overCeil else 0
  let below := if consecutive then d.dist.underCeil else 0
  let x : DistState := { d.dist with overCeil := if late then above + 1 else 0, underCeil := if late then 0 else below + 1 }
  let d := { d with dist := x }
  if !x.implausible && decide (2 ≤ x.overCeil) then secRecord 0x34 [1, rate] { d with dist := { x with implausible := true } }
  else if x.implausible && decide (2 ≤ x.underCeil) then secRecord 0x34 [0, rate] { d with dist := { x with implausible := false } }
  else d

/-- The GNSS cross-check of a gate (R95-R98). A gate whose newest sample is 2 s to 5 s old neither counts nor breaks a run, and the
agreement run outlasts such a pause (DESIGN CHOICE, log 75); the 5 s of R98 run from the last sample's admission (DESIGN CHOICE,
log 76). -/
def gnssCheck (d : Dev) : Dev :=
  let x := d.dist
  match x.gnss with
  | none => d
  | some (g, t) =>
    if t + 20480 < d.now then { d with dist := { x with disagree := 0 } }
    else if t + 8192 < d.now then d
    else
      let tol := max (d.cfg 10 7 3 * 256) (d.cfg 11 31 27 * g / 100)
      let bad := decide (tol < max x.speed g - min x.speed g)
      let x : DistState := { x with disagree := if bad then x.disagree + 1 else 0, agree := if bad then 0 else x.agree + 1 }
      let d := { d with dist := x }
      if !x.conflict && bad && decide (d.cfg 10 17 8 * 4 ≤ x.disagree) then
        secRecord 0x33 [1, quarters x.speed, quarters g] { d with dist := { x with conflict := true, agree := 0 } }
      else if x.conflict && !bad && decide (40 ≤ x.agree) then
        secRecord 0x33 [0, quarters x.speed, quarters g] { d with dist := { x with conflict := false } }
      else d

/-- The overspeed rule of a gate (R448, R449); a gate that does not follow the last one breaks a run of consecutive gates. -/
def overspeedCheck (next : Bool) (d : Dev) : Dev :=
  let x : DistState := if next then d.dist else { d.dist with overRun := 0, underRun := 0, overMax := if d.dist.overspeed then d.dist.overMax else 0 }
  let limit := d.cfg 13 34 27 * 256
  let late := decide (limit < x.speed)
  if x.overspeed then
    let x : DistState := { x with overMax := max x.overMax x.speed, underRun := if late then 0 else x.underRun + 1 }
    if 4 ≤ x.underRun then secRecord 0x30 [0, limit, x.overMax] { d with dist := { x with overspeed := false, overRun := 0, overMax := 0 } }
    else { d with dist := x }
  else if late then
    let x : DistState := { x with overRun := x.overRun + 1, overMax := max x.overMax x.speed }
    if d.cfg 13 26 20 * 4 ≤ x.overRun then
      secRecord 0x30 [1, limit, x.overMax] { d with dist := { x with overspeed := true, underRun := 0 } }
    else { d with dist := x }
  else { d with dist := { x with overRun := 0, overMax := 0 } }

/-- Speed triggers of a gate (R665). -/
def speedTriggers (old new : Nat) (d : Dev) : Dev :=
  (d.app.applets).foldl (fun d a =>
    let rising := a.direction % 2 == 1 && decide (old ≤ a.threshold) && decide (a.threshold < new)
    let falling := a.direction / 2 == 1 && decide (a.threshold < old) && decide (new ≤ a.threshold)
    if rising || falling then fireTrigger 4 [word new, if rising then 1 else 2, d.time.tick] a.ref d else d) d

/-- SPEED_GATE: every 1,024 ticks in the powered states (R92). -/
def execSpeedGate (now : Nat) (s : State) : Out :=
  lift (fun d =>
    let g := d.now / 1024
    if d.boot.running && decide (d.dist.gate < g) then
      let v := speedAt d.dist now
      let old := d.dist.gateSpeed
      let next := d.dist.gate + 1 == g
      let d := { d with dist := { d.dist with speed := v, gateSpeed := v, gate := g } }
      speedTriggers old v (overspeedCheck next (gnssCheck (plausibility g next d)))
    else d) s

/-- STANDSTILL_TIMEOUT (R93): no pulse for P10's timeout, in units of 0.1 s (DEDUCED, log 43). -/
def execStandstillTimeout (now : Nat) (s : State) : Out :=
  lift (fun d =>
    let limit := ceilDiv (d.cfg 10 24 18 * 1048576) 10
    if clockChecked d && d.dist.moving && decide ((d.dist.last.getD 0) + limit ≤ now) then
      setMotion false { d with dist := { d.dist with speed := 0 } }
    else d) s

/-- DISTANCE_READ (R90). -/
def execDistanceRead (r : Req) (s : State) : Out :=
  hostCmd 0x0810 r (fun _ => needTenant r) (fun d => do
    param (r.len == 0)
    let x := d.dist
    okWords d [x.pulses, d.distance, mkWord [(47, 24, x.speed), (23, 22, flag x.moving), (21, 21, flag x.implausible),
      (20, 20, flag x.conflict)], word x.k]) s

/-- A sample with a 3D fix, as of its admission tick: the newest is kept (R95, R96); one that comes more than 5 s after the last starts
the disagreement run afresh (R98). -/
def takeSample (v t : Nat) (x : DistState) : DistState :=
  match x.gnss with
  | none => { x with gnss := some (v, t) }
  | some (_, u) => if t < u then x else { x with gnss := some (v, t), disagree := if u + 20480 < t then 0 else x.disagree }

/-- GNSS_FEED (R95, R109). -/
def execGnssFeed (r : Req) (s : State) : Out :=
  hostCmd 0x0811 r (fun d => needRight d r 0) (fun d => do
    param (r.sized 1 && onlyBits (r.w 0) [(47, 16)] && decide (r.f 0 47 24 ≤ 76800) && decide (r.f 0 23 16 ≤ 3))
    okNone (if 2 ≤ r.f 0 23 16 then { d with dist := takeSample (r.f 0 47 24) r.start d.dist } else d)) s

-- General counters (R99-R104, R116, R117)

/-- Updates the counters of a range. -/
def modCounters (first n : Nat) (f : Counter → Counter) (d : Dev) : Dev :=
  (List.range n).foldl (fun d i => d.putCounter (f (counterAt d.time.counters (first + i)))) d

def rangeOk (r : Req) : Bool := r.sized 1 && onlyBits (r.w 0) [(47, 16)] && decide (r.f 0 39 28 + r.f 0 27 16 + 1 ≤ 4096)

/-- COUNTER_ALLOCATE (R99, R100, R116). -/
def execCounterAllocate (r : Req) (s : State) : Out :=
  hostCmd 0x0901 r (fun _ => needOwner r) (fun d => do
    let t : Byte := BitVec.ofNat 8 (r.f 0 47 40)
    let n := r.f 0 27 16 + 1
    param (rangeOk r && t != 0xFF && (d.tenant d.pat.gen t).isSome)
    param ((List.range n).all (fun i =>
      let c := counterAt d.time.counters (r.f 0 39 28 + i)
      c.holder == 0xFF || c.holder == t))
    okNone (modCounters (r.f 0 39 28) n (fun c => { c with holder := t }) d)) s

/-- COUNTER_RELEASE. -/
def execCounterRelease (r : Req) (s : State) : Out :=
  hostCmd 0x0902 r (fun _ => needOwner r) (fun d => do
    param (rangeOk r)
    okNone (modCounters (r.f 0 39 28) (r.f 0 27 16 + 1) (fun c => { c with holder := 0xFF }) d)) s

/-- The issuer holds the counter (R99). -/
def needHolder (r : Req) (d : Dev) : Res Unit :=
  need (r.tenant != 0xFF && (counterAt d.time.counters (r.f 0 11 0)).holder == r.tenant) St.policyRefused

/-- COUNTER_READ. -/
def execCounterRead (r : Req) (s : State) : Out :=
  hostCmd 0x0903 r (needHolder r) (fun d => do
    param (r.sized 1 && onlyBits (r.w 0) [(11, 0)])
    okWords d [(counterAt d.time.counters (r.f 0 11 0)).value]) s

/-- An increment is being committed; SEC commits one at a time (R104). -/
def counterPending (d : Dev) : Bool := d.nvm.writes.any (fun w => match w.effect with
  | .counter _ _ => true
  | _ => false)

/-- An increment that was admitted earlier still waits: increments are committed in admission order (R104). -/
def earlierIncrement (r : Req) (d : Dev) : Bool :=
  d.cmds.any (fun x => x.opcode == 0x0904 && decide (x.id < r.id) && decide (d.now ≤ x.deadline))

/-- COUNTER_INCREMENT (R101-R104, R117): the limits are judged before the token is taken. -/
def execCounterIncrement (r : Req) (s : State) : Out :=
  hostCmd 0x0904 r (needHolder r) (fun d => do
    let i := r.f 0 11 0
    let v := (counterAt d.time.counters i).value
    let n := (r.w 1).toNat
    param (r.sized 3 && onlyBits (r.w 0) [(47, 47), (11, 0)] && decide (1 ≤ n) && decide (n ≤ 2 ^ 32))
    if counterPending d || earlierIncrement r d then .ok (d, .wait)
    else do
      need (!(bitOf (r.w 0) 47 && v != r.w 2)) St.counterLimit
      need (decide (v.toNat + n < 2 ^ 48)) St.counterLimit
      need (d.time.bucket != 0) St.busyRetry
      okLater { d with
        time := { d.time with bucket := d.time.bucket - 1 }
        nvm := { d.nvm with writes := d.nvm.writes ++ [{ req := some r, effect := .counter i (word (v.toNat + n)) }] } }) s

end Sys2Proof.Machine
end

