-- ==== Sys2Proof/Machine/Pattern.lean ====
section
/-! DEFINITION. Patterns (13_patterns): image, validation, staging, STORE, REVERT, the switch, and class 0x0C. -/
namespace Sys2Proof.Machine

-- Default contents (R723, 11_tamper)

def mapWord (level n rate : Nat) : Word := mkWord [(47, 46, level), (45, 38, n), (37, 35, rate)]

/-- Default tamper map, P32-P60 (sources table). -/
def defaultMap : List Word :=
  List.replicate 16 (mapWord 2 4 1) ++ [mapWord 2 1 0, mapWord 2 8 3, mapWord 1 8 3, mapWord 1 8 0, mapWord 0 64 0, mapWord 1 1 0,
    mapWord 1 1 0, mapWord 2 4 0, mapWord 2 4 0, mapWord 1 4 2, mapWord 1 1 0, mapWord 1 1 0, mapWord 2 2 0]

/-- Reset values of the device policy field map, P8-P31. -/
def defaultPolicy : List Word :=
  [mkWord [(47, 40, 0x0A), (39, 30, 20), (29, 28, 1), (27, 16, 600)],
   mkWord [(47, 39, 280), (38, 30, 50), (29, 21, 100), (20, 12, 280)],
   mkWord [(47, 33, 8000), (32, 25, 20), (24, 18, 20), (17, 8, 60), (7, 3, 5)],
   mkWord [(47, 32, 1000), (31, 27, 10)], 0,
   mkWord [(47, 38, 400), (37, 36, 1), (34, 27, 90), (26, 20, 60)],
   mkWord [(47, 35, 50), (34, 27, 0xCE), (26, 19, 145)], 0] ++ List.replicate 16 0

/-- The owner record of the factory pattern. -/
def factoryOwner : List Word :=
  [mkWord [(39, 32, 1), (31, 24, 1), (23, 16, 2), (15, 8, 2)], mkWord [(47, 40, 32), (39, 28, 64), (27, 16, 32), (15, 8, 16), (7, 0, 4)],
   mkWord [(47, 32, 1000), (31, 16, 500), (15, 8, 8)], mkWord [(31, 24, 1)]] ++ fitW 16 (bytesWords (fit 96 Config.factoryAuthority))

/-- The recorder record of the factory pattern. -/
def factoryRecorder : List Word :=
  [mkWord [(47, 40, 1), (39, 32, 1)], mkWord [(47, 40, 16), (39, 28, 16), (27, 16, 16), (15, 8, 8), (7, 0, 2)],
   mkWord [(47, 32, 1000), (31, 16, 500)], mkWord [(31, 24, 1)]] ++ List.replicate 16 0

/-- Header words P0-P7 (R539), with the count fields that the device keeps. -/
def setHeader (gen previous content kind : Nat) (img : List Word) : List Word :=
  let n := tenantCount img
  let img := setAt img 15 (setFld (wd img 15) 39 32 n)
  [mkWord [(47, 40, 1), (39, 16, gen), (15, 0, img.length)], mkWord [(47, 24, previous), (23, 0, content)], mkWord [(47, 40, kind)],
    0, 0, 0, 0, 0] ++ img.drop 8

/-- An image of the reset values with the given tenant records. -/
def imageWith (tenants : List (List Word)) : List Word :=
  setHeader 0 0 0 0 (List.replicate 8 0 ++ defaultPolicy ++ defaultMap ++ List.replicate 419 0 ++ tenants.flatten)

/-- The factory pattern, generation 0 (R723). -/
def factoryImage : List Word := imageWith [factoryOwner, factoryRecorder]

/-- M_PATTERN of an image (R540). -/
def patternDigest (img : List Word) : List Byte :=
  let recs := (tenantTable img).map (fun r => setAt r 3 (setFld (wd r 3) 23 0 0))
  sha384 (ascii [0x4B, 0x56, 0x34, 0x38, 0x35, 0x36, 0x50, 0x54] ++ wordsBytes (slice img 8 472 ++ recs.flatten))

-- Banks (R541, R542)

def Bank.valid (b : Bank) : Bool :=
  b.k0 == some true && b.gen == fld (wd b.image 0) 39 16 && patternDigest b.image == b.digest

def bank (d : Dev) (inB : Bool) : Bank := if inB then d.pat.bankB else d.pat.bankA

def setBank (inB : Bool) (x : Bank) (d : Dev) : Dev :=
  if inB then { d with pat := { d.pat with bankB := x } } else { d with pat := { d.pat with bankA := x } }

def inManufacture (d : Dev) : Bool := d.lifecycle = .manufacture

/-- Bank of the highest stored generation. -/
def highestBank (d : Dev) : Option Bool :=
  match d.pat.bankA.valid, d.pat.bankB.valid with
  | false, false => none
  | true, false => some false
  | false, true => some true
  | true, true => some (decide (d.pat.bankA.gen < d.pat.bankB.gen))

/-- The previous pattern: the other bank when it is valid, never in MANUFACTURE (R542, R558). -/
def previousBank (d : Dev) : Option Bank :=
  if inManufacture d || d.pat.gen == 0 then none
  else
    let b := bank d (!d.pat.curInB)
    if b.valid then some b else none

/-- The bank the next commit writes (R551, R553). -/
def targetBank (d : Dev) : Bool :=
  if inManufacture d then (match highestBank d with
    | some b => !b
    | none => false)
  else if d.pat.gen == 0 then false else !d.pat.curInB

-- Staging (R546, R547, R549)

/-- The image and base generation that a first edit copies (R546). -/
def stagingSource (d : Dev) : List Word × Nat :=
  if inManufacture d then
    match highestBank d with
    | some b => ((bank d b).image, (bank d b).gen)
    | none => (factoryImage, 0)
  else (d.pat.image, d.pat.gen)

def staged (d : Dev) : Staging :=
  match d.pat.staging with
  | some s => s
  | none => { image := (stagingSource d).1, base := (stagingSource d).2 }

/-- One accepted edit of the staging area (R547, R573). -/
def stageEdit (f : List Word → List Word) (d : Dev) : Res Dev := do
  let s := staged d
  need (s.edits != 0xFFFF) St.counterLimit
  .ok { d with pat := { d.pat with staging := some { s with image := f s.image, edits := s.edits + 1 } } }

-- Reserved bits of P8-P479 (R539, R548)

/-- The fields that a word of the image has; every other bit is reserved. -/
def imageFields (w : Nat) : List (Nat × Nat) :=
  if w == 8 then [(47, 4)]
  else if w == 9 then [(47, 12)]
  else if w == 10 then [(47, 3)]
  else if w == 11 then [(47, 27)]
  else if w == 12 then [(47, 0)]
  else if w == 13 then [(47, 20)]
  else if w == 14 then [(47, 19)]
  else if w == 15 then [(47, 24)]
  else if 16 ≤ w ∧ w ≤ 21 then [(47, 0)]
  else if 32 ≤ w ∧ w ≤ 60 then [(47, 35)]
  else if 64 ≤ w ∧ w ≤ 79 then [(47, 0)]
  else if 96 ≤ w ∧ w ≤ 159 then [(47, 0)]
  else if 160 ≤ w ∧ w ≤ 479 then (if (w - 160) % 10 == 0 then [(47, 8), (0, 0)] else if (w - 160) % 10 == 9 then [(47, 32), (27, 16)]
    else [(47, 0)])
  else []

-- Validation (R242, R356, R471, R512, R573; ranges of the chapters' field tables)

def inRange (x lo hi : Nat) : Bool := decide (lo ≤ x) && decide (x ≤ hi)

/-- Rate codes permitted for a source (sources table). -/
def rateOk (s rate : Nat) : Bool :=
  if s ≤ 15 then decide (rate ≤ 2)
  else if s == 17 || s == 18 then rate == 3 || rate == 4
  else if s == 25 then inRange rate 2 4
  else rate == 0

/-- Range and fuse checks of one policy word: the reason, 0 for none. -/
def policyReason (d : Dev) (img : List Word) (w : Nat) : Nat :=
  let f (hi lo : Nat) : Nat := fld (wd img w) hi lo
  let rng (b : Bool) : Nat := if b then 0 else 1
  match w with
  | 8 => if !((f 47 40 == 0x0A || f 47 40 == 0x0B) && inRange (f 39 30) 1 600 && inRange (f 27 16) 1 3600 && decide (f 15 4 ≤ 3600))
      then 1 else if f 29 28 == 0 && !d.isD then 3 else 0
  | 9 => rng (inRange (f 47 39) 1 280 && inRange (f 38 30) 1 280 && inRange (f 29 21) 1 280 && inRange (f 20 12) 1 280)
  | 10 => rng (inRange (f 47 33) 4000 25000 && inRange (f 32 25) 8 255 && inRange (f 24 18) 5 100 && inRange (f 17 8) 10 600 &&
      inRange (f 7 3) 1 20)
  | 11 => rng (inRange (f 47 32) 100 58250 && inRange (f 31 27) 1 25)
  | 12 => rng (wd img 12 == 0 || f 47 40 == 0xFE)
  | 13 => rng (inRange (f 47 38) 1 1000 && inRange (f 37 36) 1 3 && inRange (f 34 27) 30 200 && inRange (f 26 20) 1 120)
  | 14 => rng (inRange (f 47 35) 1 6000 && inRange (f 34 27) 196 211 && inRange (f 26 19) 140 149)
  | 15 => rng (decide (f 47 40 ≤ 8) && decide (f 31 24 ≤ 32))
  | _ => 0

/-- Checks of a tamper-map word. -/
def mapReason (img : List Word) (s : Nat) : Nat :=
  let n := fld (wd img (32 + s)) 45 38
  let rate := fld (wd img (32 + s)) 37 35
  if isEvent s then (if n == 1 && rate == 0 then 0 else 4)
  else if n == 0 then 1 else if rateOk s rate then 0 else 4

/-- Checks of verifier entry k. -/
def classReason (img : List Word) (k : Nat) : Nat :=
  let c := fld (wd img 15) 47 40
  let w := 96 + 8 * k
  let id (j : Nat) : Nat := fld (wd img (96 + 8 * j)) 47 32
  if c ≤ k then (if (slice img w 8).all (· == 0) then 0 else 4)
  else if 42 < fld (wd img w) 7 0 then 1
  else if id k == 0 || (List.range k).any (fun j => id j == id k) then 6 else 0

/-- Checks of admission entry k (R674). -/
def appletReason (img : List Word) (k : Nat) : Nat :=
  let e := wd img (160 + 10 * k + 9)
  if fld (wd img 15) 31 24 ≤ k then 0
  else if fld e 47 32 == 0 then 1 else if !bitOf e 26 && fld e 23 16 != 0 then 4 else 0

def sumOver (img : List Word) (f : List Word → Nat) : Nat := ((tenantTable img).map f).foldl (· + ·) 0

/-- The reservation sums of R242. -/
def sumsOk (img : List Word) : Bool :=
  decide (sumOver img recQueue ≤ 496) && decide (sumOver img recCache ≤ 1984) && decide (sumOver img recSlots ≤ 1008) &&
    decide (sumOver img recOpMem ≤ 224) && decide (sumOver img recLongs ≤ 64)

/-- The first failing check of an image: its reason and word offset (R554). -/
def invalidAt (d : Dev) (img : List Word) : Option (Nat × Nat) :=
  let marks := (List.range 8).map (fun i => (policyReason d img (8 + i), 8 + i)) ++
    (List.range 29).map (fun s => (mapReason img s, 32 + s)) ++ (List.range 8).map (fun k => (classReason img k, 96 + 8 * k)) ++
    (List.range 32).map (fun k => (appletReason img k, 169 + 10 * k))
  match marks.find? (fun m => m.1 != 0) with
  | some m => some m
  | none => if sumsOk img then none else some (2, img.length - 20)

def invalid {α : Type} (reason offset : Nat) : Res α :=
  .error { status := St.patternInvalid, words := [mkWord [(31, 16, offset), (7, 0, reason)]] }

-- Commits (R543-R545, R551, R555-R558)

def needPatternOwner (r : Req) : Res Unit := need (r.tenant == 0) St.policyRefused

/-- When STORE and REVERT may begin (R544, R545, R555). -/
def commitAllowed (d : Dev) : Res Unit := do
  need (!(d.lifecycle = .returned)) St.policyRefused
  need (!(d.lifecycle = .departed)) St.departed
  need (!(d.lifecycle = .scorched)) St.scorched
  need (d.pat.old.isNone && d.succ.state != 1 && (d.fw.handover.map (fun h => h.ctype != 1)).getD true) St.busyRetry

def commitsToday (d : Dev) : Nat := if d.pat.day == d.now / 353894400 then d.pat.commits else 0

def commitLimits (d : Dev) : Res Unit := do
  need (decide (commitsToday d < 24)) St.busyRetry
  need (d.pat.highest + 1 != 2 ^ 24 - 1) St.counterLimit

/-- A commit is under way or its switch is due. -/
def commitPending (d : Dev) : Bool := d.pat.due.isSome || d.nvm.writes.any (fun w => match w.effect with
  | .pattern _ _ _ _ => true
  | _ => false)

/-- Phases 1 and 2: the image goes into its bank with K0 pending, and its write begins (R551). -/
def beginCommit (r : Req) (inB : Bool) (img : List Word) (revert : Bool) (d : Dev) : Dev :=
  let gen := fld (wd img 0) 39 16
  let d := setBank inB { k0 := some false, gen := gen, image := img, digest := patternDigest img, k1 := 0 } d
  { d with
    pat := { d.pat with day := d.now / 353894400, commits := commitsToday d + 1 }
    nvm := { d.nvm with writes := d.nvm.writes ++ [{ req := some r, effect := .pattern inB gen revert none }] } }

/-- PATTERN_STORE (R550-R555). -/
def execPatternStore (r : Req) (s : State) : Out :=
  hostCmd 0x0C03 r (fun _ => needPatternOwner r) (fun d => do
    commitAllowed d
    param (r.sized 1 && onlyBits (r.w 0) [(47, 24), (15, 0)])
    if commitPending d then .ok (d, .wait)
    else do
      let s := staged d
      if r.f 0 47 24 != s.base || r.f 0 15 0 != s.edits then invalid 5 0
      else do
        commitLimits d
        match invalidAt d s.image with
        | some (reason, at') => invalid reason at'
        | none =>
          let gen := d.pat.highest + 1
          let prev := if inManufacture d then 0 else d.pat.gen
          okLater (beginCommit r (targetBank d) (setHeader gen prev gen 0 s.image) false d)) s

/-- The epoch that the creation of a tenant number gives: one above the highest it has held (R239). -/
def newEpoch (d : Dev) (t : Byte) : Nat := ((d.pat.high.find? (fun e => e.1 == t)).map (·.2)).getD 0 + 1

/-- The epoch that a number takes with its live one kept: a REVERT keeps it for tenants that both patterns hold (R557), a write after the
loss of the pattern restores it (R571). -/
def epochFor (d : Dev) (t : Byte) : Nat :=
  match d.pat.live.find? (fun e => e.1 == t) with
  | some e => e.2
  | none => newEpoch d t

/-- The tenant records of a reverted image: present tenants keep their epoch, others are created anew (R557). -/
def revertTable (d : Dev) (img : List Word) : List (List Word) :=
  (tenantTable img).map (fun r => setAt r 3 (setFld (wd r 3) 23 0 (epochFor d (BitVec.ofNat 8 (recTenant r)))))

/-- PATTERN_REVERT (R556-R558). -/
def execPatternRevert (r : Req) (s : State) : Out :=
  hostCmd 0x0C04 r (fun _ => needPatternOwner r) (fun d => do
    commitAllowed d
    param (r.len == 0)
    if commitPending d then .ok (d, .wait)
    else
      match previousBank d with
      | none => rej St.patternNoPrevious
      | some b => do
        commitLimits d
        need ((tenantTable b.image).all (fun x => decide (epochFor d (BitVec.ofNat 8 (recTenant x)) < 2 ^ 24))) St.counterLimit
        let gen := d.pat.highest + 1
        let img := b.image.take 480 ++ (revertTable d b.image).flatten
        okLater (beginCommit r (!d.pat.curInB) (setHeader gen d.pat.gen (fld (wd b.image 1) 23 0) 1 img) true d)) s

-- The switch (R239-R241, R552, R571)

/-- Running activations of a tenant end UNLOADED at their next suspension point; idle applets go at once (R679). -/
def unloadTenant (t : Byte) (d : Dev) : Dev :=
  (d.app.applets.filter (fun x => x.ref.tenant == t)).foldl (fun d x => requestUnload x.ref d) d

/-- A tenant leaves the table (R240). -/
def removeTenant (t : Byte) (d : Dev) : Dev :=
  let d := closeWhere .b (fun s => s.tenant == t) (closeWhere .a (fun s => s.tenant == t) d)
  let d := cancelOps (fun l => l.tenant == t) (unloadTenant t d)
  let d := eraseSlots (fun s => s.tenant == t) d
  { d with
    keys := { d.keys with
      epochs := d.keys.epochs.filter (fun e => e.1 != t), hearts := d.keys.hearts.filter (fun h => h.tenant != t) }
    time := { d.time with
      alarms := d.time.alarms.filter (fun a => a.1 != t), fired := d.time.fired.filter (· != t)
      counters := d.time.counters.foldl (fun cs c => if c.holder == t then Machine.putCounter { c with holder := 0xFF } cs else cs)
        d.time.counters } }

/-- A tenant becomes LOCKED (R241). -/
def lockTenant (t : Byte) (d : Dev) : Dev :=
  let q := d.cmds.filter (fun r => r.tenant == t)
  let d := q.foldl (fun d r => refuseWith r St.policyRefused 0 d) { d with cmds := d.cmds.filter (fun r => r.tenant != t) }
  let mark (x : Applet) : Applet := { x with act := x.act.map (fun a => { a with locked := true }) }
  let d := { d with app := { d.app with applets := modWhere (fun x => x.ref.tenant == t) mark d.app.applets } }
  cancelOps (fun l => l.tenant == t) d

def recEpochOf (img : List Word) (t : Byte) : Option Nat := (tenantRec img t).map recEpoch

/-- Tenants of the old table that are gone from the new one, or are there as a new creation. -/
def goneTenants (old new : List Word) : List Byte :=
  ((tenantTable old).map (fun r => BitVec.ofNat 8 (recTenant r))).filter (fun (t : Byte) => recEpochOf new t != recEpochOf old t)

def newlyLocked (old new : List Word) : List Byte :=
  ((tenantTable new).filter (fun r => recState r == 2 &&
    ((tenantRec old (BitVec.ofNat 8 (recTenant r))).map recState) == some 1)).map (fun r => BitVec.ofNat 8 (recTenant r))

/-- Raises the highest epoch of each number present (R239, R571). -/
def raiseHigh (live high : List (Byte × Nat)) : List (Byte × Nat) :=
  live.foldl (fun h e => match h.find? (fun x => x.1 == e.1) with
    | some x => modWhere (fun y => y.1 == e.1) (fun y => (y.1, max x.2 e.2)) h
    | none => h ++ [e]) high

/-- The epochs that a tenant table gives its tenants. -/
def tableEpochs (img : List Word) : List (Byte × Nat) :=
  (tenantTable img).map (fun r => ((BitVec.ofNat 8 (recTenant r) : Byte), recEpoch r))

/-- The epochs and the owner and recorder records that SEC keeps (R571). -/
def keepTable (img : List Word) (d : Dev) : Dev :=
  let live := tableEpochs img
  { d with pat := { d.pat with
    live := live, high := raiseHigh live d.pat.high
    keptOwner := (tenantRec img 0).getD d.pat.keptOwner, keptRecorder := (tenantRec img 1).getD d.pat.keptRecorder } }

/-- The fields of other chapters that a generation sets as a whole: k with its rebase (R91), W' (R719). -/
def applyFields (img : List Word) (d : Dev) : Dev :=
  let k := fld (wd img 10) 47 33
  let x := d.dist
  { d with dist :=
    if k == x.k then { x with wPrime := samplesOf (fld (wd img 10) 32 25) }
    else { x with db := d.distance, pb := x.pulses, k := k, wPrime := samplesOf (fld (wd img 10) 32 25) } }

/-- Applets that no entry admits any more: idle ones are unloaded, queued calls of running ones end CANCELLED (R676). -/
def dropUnadmitted (d : Dev) : Dev :=
  (d.app.applets.filter (fun x => (admitted d x).isNone)).foldl (fun d x =>
    if x.act.any (fun t => t.started) then
      finishWhere (fun l => l.state = .queued && (match l.data with
        | .applet b _ _ => x.ref == b
        | _ => false)) .cancelled St.cancelled d
    else unloadApplet x.ref d) d

/-- PATTERN record (R444). -/
def patternRecord (gen prev kind switch : Nat) (digest : List Byte) (d : Dev) : Dev :=
  secRecordAt 0x40 (stamp d [(gen : Int), (prev : Int), (kind : Int), (switch : Int)]) (.bits (wordBits (bytesWords digest)))
    { d with jrn := { d.jrn with lastPatternRec := max d.jrn.lastPatternRec gen } }

/-- The tenant table of the running image is held against its sums (R281). -/
def checkTable (img : List Word) (d : Dev) : Dev :=
  if sumsOk img then { d with sched := { d.sched with tableBroken := false } }
  else raiseFault 9 (alertBit Alert.pattern { d with sched := { d.sched with tableBroken := true } })

/-- Makes a bank's image the running pattern, with everything that follows a change of the tenant table. -/
def adopt (img : List Word) (gen k1 : Nat) (inB : Bool) (d : Dev) : Dev :=
  let old := d.pat.image
  let d := { d with
    pat := { d.pat with
      image := img, gen := gen, switched := k1, curInB := inB, due := none, staging := none
      old := if d.pat.gen == gen then none else some (d.pat.gen, old) }
    boot := { d.boot with mPattern := patternDigest img } }
  let d := applyFields img d
  let d := (goneTenants old img).foldl (fun d t => removeTenant t d) d
  let d := (newlyLocked old img).foldl (fun d t => lockTenant t d) d
  checkTable img (dropUnadmitted (keepTable img d))

/-- PATTERN_SWITCH at tick K1 (R551, R552): the switch, its record ahead of any other (R566), and the reply, which under PF_N waits (R724). -/
def execPatternSwitch (s : State) : Out :=
  lift (fun d =>
    match d.pat.due with
    | none => d
    | some x =>
      if d.now < x.k1 || !d.boot.running then d
      else
        let b := bank d x.inB
        let prev := d.pat.gen
        let d := logAt Core.sch 23 (word x.gen) (word x.k1) false (adopt b.image x.gen x.k1 x.inB d)
        let d := attnBoth Attn.pattern (patternRecord x.gen prev (flag x.revert) x.k1 b.digest d)
        match x.req with
        | some r => heldOutcome d (complete r St.ok ([mkWord [(47, 24, x.gen)], word x.k1] ++ bytesWords b.digest) 60 d)
        | none => d) s

/-- The switch tick that SEC fixes at the start of phase 3: the tick in progress plus 9 (R551; DEDUCED, log 41), 0 in
MANUFACTURE (R553). -/
def switchTick (d : Dev) : Nat := if inManufacture d then 0 else d.now + 9

/-- The image write has ended and phase 3 begins with K1 in its bank; under PF_N no further write of the commit starts and its command
waits for BUSY_RETRY (R724). -/
def beginPhase3 (req : Option Req) (inB : Bool) (gen : Nat) (revert : Bool) (d : Dev) : Dev :=
  if d.power.pfn then { d with power := { d.power with pfnCmds := d.power.pfnCmds ++ req.toList } }
  else
    let k1 := switchTick d
    setBank inB { bank d inB with k1 := k1 }
      { d with nvm := { d.nvm with writes := { req := req, effect := .pattern inB gen revert (some k1) } :: d.nvm.writes } }

/-- The K0-valid write has ended: the commit stands. Outside MANUFACTURE the switch is due at K1 (R551); in MANUFACTURE no switch is
made (R553), and the epochs that the stored table gives are taken (R239). -/
def patternCommitted (req : Option Req) (inB : Bool) (gen : Nat) (revert : Bool) (k1 : Nat) (d : Dev) : Dev :=
  let b := bank d inB
  let d := setBank inB { b with k0 := some true } { d with pat := { d.pat with highest := max d.pat.highest gen } }
  if inManufacture d then
    let d := patternRecord gen 0 0 0 b.digest { d with pat := { d.pat with staging := none, high := raiseHigh (tableEpochs b.image) d.pat.high } }
    match req with
    | some r => complete r St.ok ([mkWord [(47, 24, gen)], 0] ++ bytesWords b.digest) 60 d
    | none => d
  else { d with pat := { d.pat with due := some { inB := inB, gen := gen, k1 := k1, req := req, revert := revert } } }

/-- A write of a commit has ended; one that cannot stand voids its bank (R722). -/
def patternWritten (req : Option Req) (inB : Bool) (gen : Nat) (revert : Bool) (k1 : Option Nat) (ok : Bool) (d : Dev) : Dev :=
  if ok then
    match k1 with
    | none => beginPhase3 req inB gen revert d
    | some t => patternCommitted req inB gen revert t d
  else
    let d := setBank inB { bank d inB with k0 := none } d
    match req with
    | some r => refuseWith r St.internalFault 0 d
    | none => d

-- Class 0x0C

/-- PATTERN_READ (R573). -/
def execPatternRead (r : Req) (s : State) : Out :=
  hostCmd 0x0C01 r (fun _ => needPatternOwner r) (fun d => do
    let src := r.f 0 47 40
    param (r.sized 1 && onlyBits (r.w 0) [(47, 40), (31, 0)] && inRange src 1 3)
    let x ← if src == 1 then (.ok (d.pat.image, d.pat.gen) : Res (List Word × Nat))
      else if src == 3 then .ok ((staged d).image, (staged d).base)
      else match previousBank d with
        | some b => .ok (b.image, b.gen)
        | none => rej St.patternNoPrevious
    param (decide (r.f 0 31 16 + r.f 0 15 0 ≤ x.1.length))
    okWords d (mkWord [(47, 24, x.2), (15, 0, x.1.length)] :: slice x.1 (r.f 0 31 16) (r.f 0 15 0))) s

/-- PATTERN_WRITE (R547, R548). -/
def execPatternWrite (r : Req) (s : State) : Out :=
  hostCmd 0x0C02 r (fun _ => needPatternOwner r) (fun d => do
    let first := r.f 0 31 16
    let n := r.f 0 15 0
    param (r.sized (1 + n) && onlyBits (r.w 0) [(31, 0)] && n != 0 && decide (8 ≤ first) && decide (first + n ≤ 480))
    let ws := slice r.words 1 n
    param ((List.range n).all (fun i => onlyBits (wd ws i) (imageFields (first + i))))
    let d ← stageEdit (fun img =>
      let x := img.take first ++ ws ++ img.drop (first + n)
      setAt x 15 (setFld (wd x 15) 39 32 (tenantCount img))) d
    okWords d [word (staged d).edits]) s

/-- PATTERN_DISCARD. -/
def execPatternDiscard (r : Req) (s : State) : Out :=
  hostCmd 0x0C05 r (fun _ => needPatternOwner r) (fun d => do
    param (r.len == 0)
    okNone { d with pat := { d.pat with staging := none } }) s

/-- PATTERN_INFO, any tenant. -/
def execPatternInfo (r : Req) (s : State) : Out :=
  hostCmd 0x0C06 r (fun _ => needTenant r) (fun d => do
    param (r.len == 0)
    let own := r.tenant == 0
    let s := staged d
    okWords d ([mkWord [(47, 24, d.pat.gen), (23, 0, ((previousBank d).map (·.gen)).getD 0)], word d.pat.switched,
      mkWord [(47, 24, if own then s.base else 0), (16, 16, flag d.pat.old.isSome), (15, 0, if own then s.edits else 0)],
      word (24 - commitsToday d)] ++ fitW 8 (bytesWords (fit 48 d.boot.mPattern)))) s

end Sys2Proof.Machine
end

