-- ==== Sys2Proof/Machine/Tenants.lean ====
section
/-! DEFINITION. Tenant commands (R284, R285), class 0x0E, deadlines and the expiries of long operations (R257-R273). -/
namespace Sys2Proof.Machine

-- Tenant records (R284)

/-- Ranges of a tenant record. -/
def recordOk (r : List Word) : Bool :=
  let t := recTenant r
  let rc := t == 1
  let n := if recKeyType r == 1 then 64 else if recKeyType r == 2 then 96 else if recKeyType r == 3 then 32 else 96
  onlyBits (wd r 0) [(47, 40), (39, 32), (31, 24), (20, 16), (15, 8)] && onlyBits (wd r 2) [(47, 8)] && onlyBits (wd r 3) [(47, 24), (23, 0)]
    && t != 0xFF && inRange (recState r) 1 2 && !(recState r == 2 && decide (t ≤ 1))
    && (if rc then recBand r == 0 else inRange (recBand r) 1 3) && decide (recKeyType r ≤ 3)
    && inRange (recQueue r) (if rc then 8 else 1) 128 && inRange (recCache r) (if rc then 8 else 0) 512
    && inRange (recSlots r) (if rc then 8 else 0) 256 && decide (recOpMem r ≤ 64) && decide (recLongs r ≤ 16)
    && decide (recLaneMs r ≤ 8000) && decide (recPkMs r ≤ 2000) && decide (recUrgent r ≤ 64)
    && decide (recRecords r ≤ 4096) && decide (recWidth r ≤ 4) && ((wordsBytes (slice r 4 16)).drop n).all (· == 0)

/-- Puts a record in its place of the tenant table, in ascending tenant order. -/
def putRecord (r : List Word) (img : List Word) : List Word :=
  let tb := tenantTable img
  let lo := tb.filter (fun x => decide (recTenant x < recTenant r))
  let hi := tb.filter (fun x => decide (recTenant r < recTenant x))
  let x := img.take 480 ++ (lo ++ [r] ++ hi).flatten
  setAt x 15 (setFld (wd x 15) 39 32 (tenantCount x))

def dropRecord (t : Nat) (img : List Word) : List Word :=
  let x := img.take 480 ++ ((tenantTable img).filter (fun x => recTenant x != t)).flatten
  setAt x 15 (setFld (wd x 15) 39 32 (tenantCount x))

def needOwnerTenant (r : Req) : Res Unit := need (r.tenant == 0) St.policyRefused

/-- No bank was valid at the start: the device runs without a stored pattern (R570). -/
def patternLost (d : Dev) : Bool := !inManufacture d && d.pat.gen == 0

/-- The epoch a staged record carries: kept by an edit, the next one of its number for a new tenant, also for one that the same staging
has removed (R239); in the state of R570 a recorded live epoch is restored (R571). -/
def writeEpoch (d : Dev) (t : Byte) : Nat :=
  match tenantRec (staged d).image t with
  | some x => recEpoch x
  | none => if patternLost d then epochFor d t else newEpoch d t

def recordWithEpoch (ws : List Word) (e : Nat) : List Word := setAt (fitW 20 ws) 3 (setFld (wd ws 3) 23 0 e)

/-- TENANT_WRITE: a staged edit; a new tenant takes the next epoch of its number (R239). -/
def execTenantWrite (r : Req) (s : State) : Out :=
  hostCmd 0x0201 r (fun _ => needOwnerTenant r) (fun d => do
    param (r.sized 20 && recordOk r.words)
    let e := writeEpoch d (BitVec.ofNat 8 (recTenant r.words))
    need (decide (e < 2 ^ 24)) St.counterLimit
    let d ← stageEdit (putRecord (recordWithEpoch r.words e)) d
    okWords d [word e]) s

/-- TENANT_REMOVE. -/
def execTenantRemove (r : Req) (s : State) : Out :=
  hostCmd 0x0202 r (fun _ => needOwnerTenant r) (fun d => do
    let t := r.f 0 47 40
    param (r.sized 1 && onlyBits (r.w 0) [(47, 40)] && t != 0xFF && decide (2 ≤ t) &&
      (tenantRec (staged d).image (BitVec.ofNat 8 t)).isSome)
    let d ← stageEdit (dropRecord t) d
    okNone d) s

/-- TENANT_READ. -/
def execTenantRead (r : Req) (s : State) : Out :=
  hostCmd 0x0203 r (fun _ => need (r.tenant == 0 || (r.tenant != 0xFF && r.f 0 47 40 == r.tenant.toNat)) St.policyRefused) (fun d => do
    let t : Byte := BitVec.ofNat 8 (r.f 0 47 40)
    param (r.sized 1 && onlyBits (r.w 0) [(47, 40)] && t != 0xFF)
    match tenantRec d.pat.image t with
    | none => rej St.paramRange
    | some x => okWords d (x ++ [word (flag (r.tenant == 0 && tenantRec (staged d).image t != some x))])) s

/-- TENANT_LIST. -/
def execTenantList (r : Req) (s : State) : Out :=
  hostCmd 0x0204 r (fun _ => needOwnerTenant r) (fun d => do
    param (r.len == 0)
    let n := ((tenantTable d.pat.image).map (fun x => 2 ^ recTenant x)).foldl (· + ·) 0
    okWords d ((List.range 6).map (fun i => word (n / 2 ^ (48 * i))))) s

/-- TENANT_STATS; part milliseconds are dropped. -/
def execTenantStats (r : Req) (s : State) : Out :=
  hostCmd 0x0205 r (fun _ => needTenant r) (fun d => do
    param (r.len == 0)
    let x := statOf d r.tenant
    let n := ((d.keys.staged.filter (fun x => x.tenant == r.tenant)).map (·.entries)).foldl (· + ·) 0
    okWords d [mkWord [(47, 40, heldBy d (· == r.tenant)), (39, 28, cacheHeld d r.tenant), (27, 16, n),
        (15, 8, (d.sched.longs.filter (fun l => l.tenant == r.tenant)).length)],
      mkWord [(47, 32, x.laneUs / 1000), (31, 16, x.pkUs / 1000), (7, 0, ceilDiv (heldOperandBytes d r.tenant) 1024)],
      mkWord [(47, 24, x.quotaRefusals), (23, 0, x.deadlines)]]) s

/-- ENGINE_OCCUPANCY. -/
def execEngineOccupancy (r : Req) (s : State) : Out :=
  hostCmd 0x0206 r (fun _ => needOwnerTenant r) (fun d => do
    param (r.len == 0)
    let b := List.replicate (256 - d.sched.buckets.length) (0, 0) ++ d.sched.buckets
    let code (x : Nat × Nat) : Nat := x.1 % 16 * 4 + x.2 % 4
    okWords d (word ((d.now / 4 * 4 + 2 ^ 24 - 1020) % 2 ^ 24) ::
      (chunksOf 8 32 b).map (fun c => word ((c.map code).foldr (fun v acc => v + 64 * acc) 0)))) s

-- Class 0x0E (R263, R264, R269, R272, R286)

/-- The operation a class 0x0E command names; the owner of an admin session may cancel any (R264). -/
def ownLong (r : Req) (any : Bool) (d : Dev) : Res LongOp := do
  param (r.sized 1 && onlyBits (r.w 0) [(23, 0)])
  match longAt d (BitVec.ofNat 24 (r.f 0 23 0)) with
  | none => rej St.policyRefused
  | some l => do
    need (l.tenant == r.tenant || (any && r.tenant == 0 && r.admin)) St.policyRefused
    .ok l

/-- LONG_STATUS (R287); a suspended operation holds no generation (R561). -/
def execLongStatus (r : Req) (s : State) : Out :=
  hostCmd 0x0E01 r (fun _ => needTenant r) (fun d => do
    let l ← ownLong r false d
    okWords d [mkWord [(47, 40, l.kind), (39, 32, l.state.code), (31, 24, l.status.toNat), (23, 0, l.handle.toNat)],
      word l.units, word l.total, if l.state = .suspended then 0 else word l.gen]) s

/-- LONG_SUSPEND. -/
def execLongSuspend (r : Req) (s : State) : Out :=
  hostCmd 0x0E02 r (fun _ => needTenant r) (fun d => do
    let l ← ownLong r false d
    param (l.state = .running || l.state = .queued)
    okNone (modLong l.handle (fun l =>
      if l.state = .queued then { l with state := .suspended, suspTick := d.now } else { l with state := .suspendPending }) d)) s

/-- An operation that resumes: it rebinds (R268); an applet call or a key generation that had not begun waits again. -/
def resumeLong (l : LongOp) (d : Dev) : Dev :=
  match l.data with
  | .applet a _ _ =>
    let begun := (((appletAt d a).bind (·.act)).map (fun t => t.handle == l.handle && t.started)).getD false
    let d := modLong l.handle (fun l => { l with state := if begun then .running else .queued, gen := d.pat.gen }) d
    if begun then d else nextActivation a d
  | .rsa x => modLong l.handle (fun l => { l with state := if x.programs = 0 && !x.inWork then .queued else .running, gen := d.pat.gen }) d
  | _ => modLong l.handle (fun l => { l with state := .running, gen := d.pat.gen }) d

/-- LONG_RESUME. -/
def execLongResume (r : Req) (s : State) : Out :=
  lift (fun d =>
    if r ∈ d.cmds ∧ r.opcode.toNat = 0x0E03 then
      fillEngines 600 (serve r (fun _ => needTenant r) (fun d => do
        let l ← ownLong r false d
        param (l.state = .suspended)
        okNone (resumeLong l d)) d)
    else d) s

/-- LONG_CANCEL. -/
def execLongCancel (r : Req) (s : State) : Out :=
  hostCmd 0x0E04 r (fun _ => needTenant r) (fun d => do
    let l ← ownLong r true d
    okNone (flushOwed (cancelLong l.handle d))) s

/-- LONG_RELEASE. -/
def execLongRelease (r : Req) (s : State) : Out :=
  hostCmd 0x0E05 r (fun _ => needTenant r) (fun d => do
    let l ← ownLong r false d
    param l.state.final
    okNone (dropLong l.handle d)) s

/-- LONG_LIST. -/
def execLongList (r : Req) (s : State) : Out :=
  hostCmd 0x0E06 r (fun _ => needTenant r) (fun d => do
    param (r.len == 0)
    let l := d.sched.longs.filter (fun l => l.tenant == r.tenant)
    okWords d (word l.length :: l.map (fun l => word l.handle.toNat))) s

-- Deadlines and expiries

/-- DEADLINE_EXPIRY of a command: one that has not started ends without effect (R258), lane work between two quanta ends (R260),
a program that waits for its retry too (R259), a queued long operation ends FAILED (R266). -/
def execDeadlineExpiry (id : Nat) (s : State) : Out :=
  lift (fun d =>
    match d.cmds.find? (fun r => r.id == id && decide (r.deadline < d.now)) with
    | some r => refuseWith r St.deadline 0 { d with cmds := d.cmds.erase r }
    | none =>
      match d.sym.waiting.find? (fun j => j.req.id == id && decide (j.req.deadline < d.now)) with
      | some j => refuseWith j.req St.deadline 0 { d with sym := { d.sym with waiting := d.sym.waiting.erase j } }
      | none =>
        match d.pk.waiting.find? (fun j => !isRsaJob j && j.req.id == id && decide (j.req.deadline < d.now)) with
        | some j => failJob j St.deadline (dropWaiting j d)
        | none =>
        match d.sched.longs.find? (fun l => l.cmd == id && !l.internal && l.state = .queued && decide (l.deadline < d.now)) with
        | some l => finishLong l.handle .failed St.deadline d
        | none => d) s

/-- LONG_SUSPENSION_POINT (R267-R269). -/
def execLongSuspensionPoint (h : BitVec 24) (s : State) : Out :=
  lift (fun d =>
    match longAt d h with
    | none => d
    | some l =>
      match l.data with
      | .applet _ _ _ => d
      | _ => closeMixed (flushOwed (suspensionPoint h d))) s

/-- SUSPEND_LIMIT_EXPIRY (R271). -/
def execSuspendLimitExpiry (h : BitVec 24) (s : State) : Out :=
  lift (fun d =>
    match longAt d h with
    | some l => if l.state = .suspended && decide (l.suspTick + d.cfg 8 27 16 * 4096 < d.now) then flushOwed (cancelLong h d) else d
    | none => d) s

/-- HANDLE_EXPIRY: 60 s after the final state (R272). -/
def execHandleExpiry (h : BitVec 24) (s : State) : Out :=
  lift (fun d =>
    match longAt d h with
    | some l => if l.state.final && decide (l.endTick + 245760 ≤ d.now) then dropLong h d else d
    | none => d) s

end Sys2Proof.Machine
end

