-- ==== Sys2Proof/Machine/Nvm.lean ====
section
/-! DEFINITION. Two-phase NVM writes and their ends (R718, R722), and row sparing (R627-R632). -/
namespace Sys2Proof.Machine

-- Spare rows (R629-R631)

/-- The area may take a spare row: the last 16 serve only the protected areas (R630). -/
def spareFor (d : Dev) (isProtected : Bool) : Bool := decide ((if isProtected then 0 else 16) < d.nvm.spare)

/-- Takes a spare row for a row; SPARE_LOW at 32 or fewer. -/
def takeSpare (row : Nat) (d : Dev) : Dev :=
  let d := { d with nvm := { d.nvm with
    spare := d.nvm.spare - 1, remaps := (row, 256 - d.nvm.spare) :: d.nvm.remaps.filter (fun m => m.1 != row) } }
  let d := logAt Core.sec 7 (word (Config.unstated 7 [row])) (word row) false d
  if d.nvm.spare ≤ 32 then alertBit Alert.spareLow d else d

/-- Rewrites a record as VOID: its head with LENGTH kept, its other words zero (R446). -/
def voidAt (p : Nat) (body : List Word) : List Word :=
  let n := max 1 (fld (wd body p) 39 30)
  body.take p ++ mkWord [(47, 40, 0xFE), (39, 30, n), (27, 27, 1)] :: List.replicate (n - 1) 0 ++ body.drop (p + n)

def voidRecord (x : OpenRecord) (d : Dev) : Dev :=
  modStream x.main (fun st => { st with cur := st.cur.map (fun o => { o with body := voidAt x.position o.body }) }) d

/-- The open segment of a stream is retired with its failing row (R631). -/
def retireSegment (main : Bool) (d : Dev) : Dev :=
  match (d.stream main).cur with
  | none => d
  | some o => closeSegment main { d with jrn := { d.jrn with retired := o.index :: d.jrn.retired } }

-- Ends of writes

def isJournalWrite (w : NvmWrite) : Bool :=
  match w.effect with
  | .record _ => true
  | _ => false

/-- Completes the waiting command of a write; a write of the device's own has none. -/
def answerWrite (w : NvmWrite) (st : Byte) (ws : List Word) (d : Dev) : Dev :=
  match w.req with
  | some r => complete r st ws (6 * ws.length) d
  | none => d

def appendReply (seq : Word) (x : OpenRecord) : List Word := [seq, intWord (x.fields.getD 0 0), mkWord [(47, 46, x.tq)]]

def originApplet (w : NvmWrite) : Option AppletRef :=
  match w.req with
  | some r => (match r.origin with
    | .applet a => some a
    | _ => none)
  | none => none

/-- A write that verified takes its effect and its command completes with its own outcome. -/
def writeDone (w : NvmWrite) (d : Dev) : Dev :=
  match w.effect with
  | .counter i v => answerWrite w St.ok [v] (d.putCounter { counterAt d.time.counters i with value := v })
  | .slot x =>
    answerWrite w St.ok [x.handle] { d with keys := { d.keys with
      slots := modWhere (fun s => s.tenant == x.tenant && s.index == x.index && s.gen == x.gen) (fun s => { s with writing := false })
        d.keys.slots } }
  | .erase _ _ n => answerWrite w St.ok [word n] d
  | .epoch t e =>
    answerWrite w St.ok [word e] { d with keys := { d.keys with epochs := (t, e) :: d.keys.epochs.filter (fun x => x.1 != t) } }
  | .record x =>
    let d := if x.done then d else commitWord x d
    answerWrite w St.ok (appendReply x.seq x) (afterCommit (originApplet w) x.main x.rtype x.seq x.fields d)
  | .summary t vals => answerWrite w St.journalSummarised [0] (summarise t vals d)
  | .offset v path confirm tenant => offsetCommitted w.req tenant v path confirm true d
  | .pattern inB gen revert k1 => patternWritten w.req inB gen revert k1 true d

/-- A journal row that no spare row serves: the segment is retired with the record void in it, and the append takes a new number
in the next segment (R631, log 28). -/
def rewriteRecord (w : NvmWrite) (x : OpenRecord) (d : Dev) : Dev :=
  if x.done then writeDone w d
  else
    let d := retireSegment x.main (voidRecord x d)
    let payload := ((w.req.bind (fun r => appendFields r d.now)).map (·.2)).getD []
    match appendAt x.rtype x.tq 1 x.fields (.bits (byteBits payload)) d with
    | (.written main _ seq, d) => answerWrite w St.ok (appendReply seq x) (afterCommit (originApplet w) main x.rtype seq x.fields d)
    | (.summarised, d) => answerWrite w St.journalSummarised [0] d
    | (.closed, d) => answerWrite w St.internalFault [] d

/-- A write that cannot stand is void: the command had no effect but for values already taken (R722); a voided slot write leaves
the slot empty (R327). -/
def writeFailed (w : NvmWrite) (d : Dev) : Dev :=
  match w.effect with
  | .record x => rewriteRecord w x d
  | .slot x => answerWrite w St.internalFault [] (raiseFault 4 (dropSlot x.tenant x.index d))
  | .pattern inB gen revert k1 => patternWritten w.req inB gen revert k1 false (raiseFault 4 d)
  | .offset v path confirm tenant => offsetCommitted w.req tenant v path confirm false (raiseFault 4 d)
  | _ => answerWrite w St.internalFault [] (raiseFault 4 d)

/-- The end of a write; a remap that finds no spare row for its area fails (DESIGN CHOICE, log 47). -/
def endWrite (e : WriteEnd) (w : NvmWrite) (d : Dev) : Dev :=
  match e with
  | .verified => writeDone w d
  | .remapped => if spareFor d (!isJournalWrite w) then writeDone w (takeSpare (Config.unstated 4 [d.nvm.spare]) d) else writeFailed w d
  | .failed => writeFailed w d

/-- NVM_COMMIT_END: the oldest write in progress ends (R718, R722, R47). -/
def execNvmCommitEnd (e : WriteEnd) (s : State) : Out :=
  lift (fun d =>
    match d.nvm.writes with
    | [] => d
    | w :: rest => heldOutcome d (endWrite e w { d with nvm := { d.nvm with writes := rest } })) s

-- Nonce reservations (R348, R350, R384, R718)

/-- The end of a reservation commit in NVM: the limit is raised; a failed one leaves its limit attempted and the slot refuses
encryption; a void one leaves the slot as it was. -/
def reservationEnd (e : WriteEnd) (n : Nonce) : Nonce :=
  match e with
  | .failed => { n with broken := true, reserving := false }
  | _ => { n with limit := n.attempted, reserving := false }

def reservationVoid (n : Nonce) : Nonce := { n with attempted := n.limit, reserving := false }

/-- Applies the end of a reservation to its slot. -/
def settleReservation (f : Nonce → Nonce) (x : Reservation) (d : Dev) : Dev :=
  { d with keys := { d.keys with
    slots := modWhere (fun s => s.tenant == x.tenant && s.index == x.index) (fun s => { s with nonce := s.nonce.map f }) d.keys.slots } }

/-- Every reservation commit in progress completes (R47). -/
def finishReservations (d : Dev) : Dev :=
  d.nvm.reservations.foldl (fun d x => settleReservation (reservationEnd .verified) x d)
    { d with nvm := { d.nvm with reservations := [] } }

-- Writes that are left to themselves

/-- The image write of a pattern commit. -/
def isImageWrite (w : NvmWrite) : Bool :=
  match w.effect with
  | .pattern _ _ _ none => true
  | _ => false

/-- Every write in progress completes (R44, R47, R55, R491 phase 2). A pattern commit is more than one write: after its image no
further one of it starts, and its bank stays pending (R567, R724). -/
def finishWrites (d : Dev) : Dev :=
  let d := finishReservations { d with nvm := { d.nvm with writes := d.nvm.writes.filter (fun w => !isImageWrite w) } }
  d.nvm.writes.foldl (fun d w => heldOutcome d (writeDone w { d with nvm := { d.nvm with writes := d.nvm.writes.drop 1 } })) d

-- Scrubbing (R627-R632)

/-- A scrub's finding calls for a remap (R628). -/
def needsRemap (row : Nat) (f : ScrubFinding) (d : Dev) : Bool :=
  match f with
  | .clean => false
  | .uncorrectable => true
  | .corrected ws => decide (2 ≤ ws.length) ||
      ws.any (fun w => (((d.nvm.lastScrub.find? (fun x => x.1 == row)).map (·.2)).getD []).contains w)

/-- A failing row: a spare row takes it over, or its area does without (R631, R632). -/
def failRow (row : Nat) (area : RowArea) (d : Dev) : Dev :=
  match area with
  | .journal main i =>
    if spareFor d false then takeSpare row d
    else if ((d.stream main).cur.map (fun o => o.index == i)).getD false then
      writeDueHem (openSegment main (retireSegment main d))
    else { d with jrn := { d.jrn with retired := if d.jrn.retired.contains i then d.jrn.retired else i :: d.jrn.retired } }
  | .fallback => if spareFor d false then takeSpare row d else { d with fw := { d.fw with fallback := [] } }
  | .keyStore => if spareFor d true then takeSpare row d else raiseFault 5 (alertBit Alert.keyStore d)
  | .protectedArea => if spareFor d true then takeSpare row d else raiseFault 5 d
  | .other => if spareFor d false then takeSpare row d else raiseFault 5 d

/-- NVM_SCRUB of one row; under PF_N it would start a write and does not run (R46). -/
def execNvmScrub (row : Nat) (area : RowArea) (f : ScrubFinding) (s : State) : Out :=
  lift (fun d => if d.power.pfn then d else
    let d := if f = .uncorrectable then alertBit Alert.uncorrectable d else d
    let d := if needsRemap row f d then failRow row area d else d
    let words := match f with
      | .corrected ws => ws
      | _ => []
    { d with nvm := { d.nvm with lastScrub := d.nvm.lastScrub.filter (fun x => x.1 != row) ++
      (if words.isEmpty then [] else [(row, words)]) } }) s

end Sys2Proof.Machine
end

