-- ==== Sys2Proof/Machine/Restart.lean ====
section
/-! DEFINITION. What every restart of R140 does, and the ends it brings to handovers, successions and debug attachments. -/
namespace Sys2Proof.Machine

-- Reset-cause bits

def Cause.por : Nat := 0
def Cause.aonLost : Nat := 1
def Cause.pin : Nat := 2
def Cause.thermal : Nat := 3
def Cause.tamperL2 : Nat := 4
def Cause.tamperL3 : Nat := 5
def Cause.watchdog : Nat := 6
def Cause.command : Nat := 7
def Cause.fault : Nat := 8
def Cause.handover : Nat := 9
def Cause.hibWake : Nat := 10

def latchCause (bit : Nat) (d : Dev) : Dev := { d with boot := { d.boot with cause := d.boot.cause ||| (1#11 <<< bit) } }

-- Debug attachments (R687, R688, R697)

/-- A DEBUG record, in a state whose journal accepts records. -/
def debugEvent (e : Nat) (d : Dev) : Dev :=
  if d.boot.running && journalOpen d && !(d.lifecycle = .blank || d.lifecycle = .returned || d.lifecycle = .scorched) then
    secRecord 0x12 [e] d
  else d

/-- Test-Logic-Reset loads IDCODE; an attachment ends, halted cores resume and the pins are released. -/
def endAttachment (d : Dev) : Dev :=
  let held := d.dbg.attached && scanHoldsPorts d
  let d := if d.dbg.attached then debugEvent 2 d else d
  let d := { d with dbg := { d.dbg with
    ir := 0x02, attached := false, peeked := false, scanned := false, haltRecords := 0, halted := [], held := none } }
  if held && portsServed d then openPorts d else d

-- Work that a restart or a loss of power ends

def owe (comp event arg : Nat) (d : Dev) : Dev := { d with fw := { d.fw with owed := d.fw.owed ++ [(comp, event, arg)] } }

/-- A handover in progress aborts: the old image stands (interactions table, R602); the record follows when SEC can write it. -/
def abortHandover (cause : Nat) (d : Dev) : Dev :=
  match d.fw.handover with
  | none => d
  | some h => owe h.ctype 5 (cause * 2 ^ 40 + h.newBuild) { d with fw := { d.fw with handover := none, loaded := none } }

/-- A succession that has not reached SUCC_COMMIT step 1 aborts on the outgoing device, whose tenant state is unfrozen. -/
def abortOutgoing (d : Dev) : Dev :=
  if d.succ.state = 1 && !d.succ.committing then
    alertBit Alert.succession { d with succ := { d.succ with
      state := 0, nonce := none, peer := [0, 0], peerKey := [], kt := [], cipher := [], tag := [], digest := [], transitLive := false } }
  else d

/-- The succession state after a restart: an incoming device keeps its pending copy (R648). -/
def successionAfter (x : SuccState) : SuccState :=
  { x with state := if x.state = 3 then 3 else if x.pending.isSome then 2 else 0, nonce := none, ephEc := [], ephKem := [], receive := [] }

-- Volatile state

/-- A nonce counter resumes at its committed limit (R350), after a failed commit above the highest limit attempted (R384); a commit
that the restart has caught is left to the repair (R718). -/
def restartNonce (n : Nonce) : Nonce :=
  let m := if n.broken then max n.limit n.attempted else n.limit
  { n with next := m, limit := m, attempted := max m n.attempted, broken := false }

/-- Persistent slots as a start finds them; volatile slots are gone (R297, R306). -/
def restartSlots (l : List Slot) : List Slot :=
  (l.filter (fun s => isPersistent s.index)).map (fun s => { s with resident := false, nonce := s.nonce.map restartNonce })

/-- The loss of the fallback image when a FALLBACK staging is interrupted (R586). -/
def lostStaging (d : Dev) : List (Nat × Nat × Nat) :=
  match d.fw.stage with
  | some x => if x.target = 3 && !x.complete then [(1, 7, (Config.faultCode 16).toNat)] else []
  | none => []

/-- Confirmations that a response due has not recorded stay latched, with the tick of their confirmation: a lower cause that restarts
the device does not take the response away (R17, R23, R500). -/
def latchWaiting (d : Dev) : Dev :=
  d.tamper.waiting.foldl (fun d x => modSrc x.src (fun s => if s.latch.isSome then s else
    { s with latch := some { x with flags := x.flags - x.flags % 2 + 1 } }) d) d

/-- A port's registers over a restart: attention causes and mask stay, which R222 does not name (log 30). -/
def keptPort (x : PortRegs) : PortRegs := { attn := x.attn, mask := x.mask }

/-- Everything a restart empties: sessions, mailboxes and rings (R222), commands, long operations (R265), volatile slots and the
key cache (R297, R328), jobs, staging areas (R549, R590), applets (R653); fences stay (R377) (DESIGN CHOICE, log 29), and so do the
motion state, its open intervals and their gate runs (DESIGN CHOICE, log 70). -/
def clearVolatile (d0 : Dev) : Dev :=
  let d := latchWaiting d0
  { d with
    portA := keptPort d.portA, portB := keptPort d.portB, cmds := [], laneReady := [], pkReady := [], held := [], done := []
    sched := { stats := d.sched.stats.map (fun x => { tenant := x.tenant, recDay := x.recDay, recCount := x.recCount })
               window := d.sched.window, tableBroken := d.sched.tableBroken }
    keys := { d.keys with hearts := [], slots := restartSlots d.keys.slots, staged := [], zeroising := 0, fencedEntries := 0 }
    sym := { d.sym with lanes := d.sym.lanes.map (fun l => { fenced := l.fenced, mismatches := l.mismatches }), randomOk := true, waiting := [] }
    pk := { engines := d.pk.engines.map (fun e => { fenced := e.fenced, fails := e.fails }) }
    time := { d.time with nonce := none }
    jrn := { d.jrn with vertices := [] }
    tamper := { d.tamper with response := none, waiting := [], recordsSince := 0 }
    pat := { d.pat with staging := none, old := none, due := none }
    fw := { d.fw with stage := none, loaded := none, handover := none, owed := d.fw.owed ++ lostStaging d }
    mgmt := { d.mgmt with window := [], taken := 0, busy := none, reply := none, readAt := 0 }
    succ := successionAfter d.succ
    app := {}
    power := { d.power with pfnCmds := [], pfnReplies := [], deferred := none, standbyAfter := false }
    boot := { d.boot with
      running := false, fallback := false, push := [], pushStarted := false, pushHeader := false, refetch := false, rest := [] } }

/-- The active domain is held in reset or unpowered: its volatile state is gone, the clock checks stop (R72), and confirmations are
latched from here on. -/
def powerDown (p : Power) (d : Dev) : Dev :=
  let d := clearVolatile (endAttachment d)
  { d with
    portA := {}, portB := {}, dbg := {}
    time := { d.time with passSince := none }
    fw := { d.fw with log := [], drops := 0 }
    power := { d.power with state := p }
    boot := { d.boot with progress := 0 } }

/-- A restart under R140: its cause is latched, volatile state goes, the log ring with it unless the entry is phase 5 (R142), and
the boot ROM is entered anew. -/
def restart (phase bit : Nat) (d : Dev) : Dev :=
  let d := abortOutgoing (abortHandover (if bit = 4 ∨ bit = 5 then 1 else 3) d)
  let d := clearVolatile (endAttachment d)
  let d := latchCause bit { d with
    dbg := {}
    fw := if phase = 5 then d.fw else { d.fw with log := [], logSeq := 0, drops := 0 }
    mgmt := if phase = 2 then { d.mgmt with alert := 0, amask := 0xFFF, faultCode := 0, faultCount := 0, address := d.mgmt.nextAddress }
      else { d.mgmt with address := d.mgmt.nextAddress }
    power := { d.power with state := .active }
    boot := { d.boot with phase := phase, enteredAt := d.now } }
  setProgress 0x01 { d with fw := { d.fw with flashBus := [], regions := [] } }

/-- An internal fault that the journal notes (R30): the management port's report and FW_EVENT 7. -/
def journalFault (kind : Nat) (d : Dev) : Dev := fwEvent 1 7 (Config.faultCode kind).toNat (raiseFault kind d)

end Sys2Proof.Machine
end

