-- ==== Sys2Proof/Machine/Bundle.lean ====
section
/-! DEFINITION. Firmware bundles: format, verification and rollback (R152-R157, R170, R574). -/
namespace Sys2Proof.Machine

def bundleMagic : Word := 0x36353834564B#48

def bTotal (ws : List Word) : Nat := fld (wd ws 1) 31 0
def bMajor (ws : List Word) : Nat := fld (wd ws 2) 47 40
def bMinor (ws : List Word) : Nat := fld (wd ws 2) 39 16
def bHybrid (ws : List Word) : Bool := bitOf (wd ws 3) 40
def bBuild (ws : List Word) : Nat := fld (wd ws 3) 31 0

/-- Words before the components: header, directory, keys and signatures. -/
def bHeadLen (ws : List Word) : Nat := if bHybrid ws then 964 else 86

structure DirEntry where
  ctype : Nat := 0
  offset : Nat := 0
  length : Nat := 0
  digest : List Byte := []
  deriving DecidableEq, Repr

def dirEntry (ws : List Word) (k : Nat) : DirEntry :=
  let w := 4 + 10 * k
  { ctype := fld (wd ws w) 47 40, offset := fld (wd ws w) 31 0, length := fld (wd ws (w + 1)) 31 0,
    digest := wordsBytes (fitW 8 (slice ws (w + 2) 8)) }

def dirEntries (ws : List Word) : List DirEntry := (List.range 5).map (dirEntry ws)

/-- The directory lists each of the five component types exactly once (R152). -/
def dirOk (ws : List Word) : Bool := (List.range 5).all (fun t => ((dirEntries ws).filter (fun e => e.ctype == t + 1)).length == 1)

def entryWords (ws : List Word) (e : DirEntry) : List Word := slice ws e.offset e.length

def entryOk (ws : List Word) (e : DirEntry) : Bool :=
  decide (e.offset + e.length ≤ ws.length) && sha384 (wordsBytes (entryWords ws e)) == e.digest

/-- R155. -/
def bRollback (d : Dev) (ws : List Word) : Bool :=
  decide (bMajor ws < d.secVersion) || (bMajor ws == d.secVersion && decide (bMinor ws < d.boot.secMinor))

/-- "KV4856FW", the header and the directory (R154). -/
def bMessage (ws : List Word) : List Byte :=
  ascii [0x4B, 0x56, 0x34, 0x38, 0x35, 0x36, 0x46, 0x57] ++ wordsBytes (fitW 54 (ws.take 54))

/-- A digest of a public key equals an anchor of eight fuse words that are usable (R164). -/
def anchorIs (d : Dev) (at' : Nat) (key : List Byte) : Bool :=
  !(d.fuse.unusable.any (fun i => decide (at' ≤ i) && decide (i < at' + 8))) &&
    wordsBytes ((List.range 8).map (fun i => d.shadow (at' + i))) == sha384 key

def ecSigned (d : Dev) (ws : List Word) : Bool :=
  let key := wordsBytes (fitW 16 (slice ws 54 16))
  let sig := wordsBytes (fitW 16 (slice ws 70 16))
  anchorIs d 0x10 key && sigHolds 2 key (sha384 (bMessage ws)) sig [] 0

def pqSigned (d : Dev) (ws : List Word) : Bool :=
  let key := (wordsBytes (fitW 326 (slice ws 86 326))).take 1952
  let sig := (wordsBytes (fitW 552 (slice ws 412 552))).take 3309
  bHybrid ws && anchorIs d 0x18 key && sigHolds 9 key (bMessage ws) sig [] 0

/-- R152 and R153: the keys and signatures. -/
def bSigned (d : Dev) (ws : List Word) : Bool := ecSigned d ws && (if d.optionBlown 0 || bHybrid ws then pqSigned d ws else true)

def bFormat (ws : List Word) : Bool :=
  wd ws 0 == bundleMagic && fld (wd ws 1) 47 40 == 1 && fld (wd ws 1) 39 32 == 5

/-- What the boot ROM makes of a source (R152-R156), in the codes of the BOOT record: 1 started, 2 invalid magic, 3 rollback,
4 signature, 5 digest. -/
def judgeBundle (d : Dev) (ws : List Word) : Nat :=
  if wd ws 0 != bundleMagic then 2
  else if bRollback d ws then 3
  else if !(bFormat ws && dirOk ws && decide (bTotal ws ≤ 524288) && bSigned d ws) then 4
  else if !((dirEntries ws).all (entryOk (ws.take (bTotal ws)))) then 5
  else 1

/-- The running components that a bundle's directory names. -/
def bComponents (ws : List Word) : List Component :=
  (dirEntries ws).map (fun e => { ctype := e.ctype, build := bBuild ws, digest := e.digest })

/-- The fallback image is present and would start. -/
def fallbackValid (d : Dev) : Bool := judgeBundle d d.fw.fallback == 1

def fallbackHybrid (d : Dev) : Bool := fallbackValid d && bHybrid d.fw.fallback

def slotWords (d : Dev) (src : Nat) : List Word := if src = 1 then d.fw.slotA else if src = 2 then d.fw.slotB else d.fw.fallback

/-- Words of an image with a chunk laid over it. -/
def overlay (at' : Nat) (ws img : List Word) : List Word := fitW at' (img.take at') ++ ws ++ img.drop (at' + ws.length)

end Sys2Proof.Machine
end

