-- ==== Sys2Proof/Machine/Fuse.lean ====
section
/-! DEFINITION. Sensing and resolving fuse words (R131-R138, R168, R721). -/
namespace Sys2Proof.Machine

/-- Group size of a step word; 0 for any other word. -/
def stepSize (i : Nat) : Nat := if i == 0 then 6 else if i == 1 then 4 else if 0x0A ≤ i ∧ i ≤ 0x0C then 2 else 0

/-- Groups of a step word. -/
def stepGroups (i : Nat) : Nat := if i == 0 then 6 else if i == 1 then 5 else 24

/-- Groups of a step word that may be programmed: SECVER groups 64 to 71, the upper third of word 0x0C, never are (R168). -/
def programmable (i : Nat) : Nat := if i == 0x0C then 16 else stepGroups i

/-- A group's restrictive value is blown. -/
def blownRestrictive (i g : Nat) : Bool := !(i == 1 && decide (2 ≤ g))

def isRestriction (i : Nat) : Bool := decide (stepSize i ≠ 0) || i == 0x0D || i == 0x0E || i == 0x0F || i == 0x29

def isReserved (i : Nat) : Bool := decide (0x2A ≤ i)

/-- Defined bits of a sealed restriction word. -/
def definedBits (i : Nat) : Word :=
  if i == 0x0D then word (2 ^ 29 - 1) else if i == 0x0F then word (2 ^ 10 - 1) else if i == 0x29 then word (2 ^ 13 - 1)
  else BitVec.allOnes 48

/-- Blown bits of group g. -/
def groupCount (n g : Nat) (w : Word) : Nat := ((List.range n).filter (fun b => bitOf w (n * g + b))).length

def groupMask (n g : Nat) : Word := mkWord [(n * g + n - 1, n * g, 2 ^ n - 1)]

/-- A resolved word: its value, the bits of marginal groups (all bits for other words), and whether it is unusable. -/
structure Resolved where
  value : Word := 0
  marginal : Word := 0
  unusable : Bool := false
  deriving DecidableEq, Repr

def orWords (l : List Word) : Word := l.foldl (· ||| ·) 0

/-- A step word (R132, R133): each group over its six reads. -/
def resolveStep (i : Nat) (reads : List Word) : Resolved :=
  let n := stepSize i
  let blown (g : Nat) : Bool := reads.all (fun w => decide (n < 2 * groupCount n g w))
  let unblown (g : Nat) : Bool := reads.all (fun w => decide (2 * groupCount n g w < n))
  let gs := List.range (stepGroups i)
  { value := orWords (gs.map (fun g => if blown g || (!unblown g && blownRestrictive i g) then groupMask n g else 0))
    marginal := orWords (gs.map (fun g => if blown g || unblown g then 0 else groupMask n g)) }

/-- A sealed restriction word (R133): 0 is restrictive for TAMPER_DISABLE, 1 for the others. -/
def resolveSealed (i : Nat) (reads : List (Option Word)) : Resolved :=
  let ok := reads.filterMap id
  let same := ok.length == reads.length && ok.all (fun w => w == ok.headD 0)
  let value := if i == 0x0D then (if ok.isEmpty then 0 else ok.foldl (· &&& ·) (BitVec.allOnes 48))
    else if ok.isEmpty then definedBits i else orWords ok
  { value := value, marginal := if same then 0 else BitVec.allOnes 48 }

/-- An identity word, and TRIM with it (R134, R721); an unusable word's value is not defined (log 13). -/
def resolveIdentity (i : Nat) (reads : List (Option Word)) : Resolved :=
  let ok := reads.filterMap id
  let same := ok.length == reads.length && ok.all (fun w => w == ok.headD 0)
  match (reads.getD 1 none).orElse (fun _ => (reads.getD 4 none).orElse (fun _ => ok.head?)) with
  | some w => { value := w, marginal := if same then 0 else BitVec.allOnes 48 }
  | none => { value := word (Config.unstated 30 [i]), marginal := BitVec.allOnes 48, unusable := true }

/-- A reserved word carries no code: the nominal read of copy 0 (R721). -/
def resolveReserved (reads : List (Option Word)) : Resolved :=
  { value := (reads.getD 1 none).getD 0, marginal := if reads.all (fun w => w == reads.headD none) then 0 else BitVec.allOnes 48 }

def resolveWord (i : Nat) (reads : List (Option Word)) : Resolved :=
  if stepSize i ≠ 0 then resolveStep i (reads.map (·.getD 0))
  else if isReserved i then resolveReserved reads
  else if isRestriction i then resolveSealed i reads
  else resolveIdentity i reads

/-- The six reads of a word: those the event names, or the two copies as the cells hold them. -/
def readsOf (d : Dev) (named : List FuseRead) (i : Nat) : List (Option Word) :=
  match named.find? (fun x => x.word == i) with
  | some x => (x.reads ++ List.replicate 6 none).take 6
  | none =>
    let c := d.fuse.cells.getD i {}
    [some c.copy0, some c.copy0, some c.copy0, some c.copy1, some c.copy1, some c.copy1]

def senseAll (d : Dev) (named : List FuseRead) : List Resolved := (List.range 96).map (fun i => resolveWord i (readsOf d named i))

def marginalList (rs : List Resolved) : List (Nat × Word) :=
  (rs.mapIdx (fun i x => (i, x.marginal))).filter (fun m => m.2 != 0)

/-- The shadow as a start builds it (R131-R134). -/
def loadShadow (named : List FuseRead) (d : Dev) : Dev :=
  let rs := senseAll d named
  remeasure { d with fuse := { d.fuse with
    shadow := rs.map (·.value), marginal := marginalList rs, drifted := [], sensed := true
    unusable := (List.range 96).filter (fun i => (rs.getD i {}).unusable) } }

-- Programming (R129, R130)

/-- The first k bits of group g. -/
def groupBits (n g k : Nat) : Word := if k == 0 then 0 else mkWord [(n * g + min k n - 1, n * g, 2 ^ min k n - 1)]

/-- The two copies after a group's programming: copy 0 first, bit by bit, then copy 1; a bit that stays unblown ends it, and so does
PF_N or RESET_N after the bit in progress. -/
def programCell (n g : Nat) (e : FuseEnd) (c : FuseCell) : FuseCell :=
  let m := groupMask n g
  match e with
  | .programmed => { copy0 := c.copy0 ||| m, copy1 := c.copy1 ||| m }
  | .stuck false b => { c with copy0 := c.copy0 ||| groupBits n g b }
  | .stuck true b => { copy0 := c.copy0 ||| m, copy1 := c.copy1 ||| groupBits n g b }
  | .stopped false b => { c with copy0 := c.copy0 ||| groupBits n g b }
  | .stopped true b => { copy0 := c.copy0 ||| m, copy1 := c.copy1 ||| groupBits n g b }

def putMarginal (i : Nat) (m : Word) (l : List (Nat × Word)) : List (Nat × Word) :=
  let rest := l.filter (fun x => x.1 != i)
  if m == 0 then rest else rest ++ [(i, m)]

def marginalOf (d : Dev) (i : Nat) : Word := ((d.fuse.marginal.find? (fun m => m.1 == i)).map (·.2)).getD 0

/-- R129 step 5: the word is sensed at all margins and its bits in `m` enter the shadow; a word that drift has marked stays marginal
until the next start (R137). -/
def senseBits (i : Nat) (m : Word) (d : Dev) : Dev :=
  let x := resolveWord i (readsOf d [] i)
  let old := marginalOf d i
  let new := if d.fuse.drifted.contains i then old else (old &&& ~~~m) ||| (x.marginal &&& m)
  { d with fuse := { d.fuse with
    shadow := modAt d.fuse.shadow i (fun w => (w &&& ~~~m) ||| (x.value &&& m)), marginal := putMarginal i new d.fuse.marginal
    unusable := if x.unusable then d.fuse.unusable else d.fuse.unusable.filter (· != i) } }

/-- Programs group g (of n bits) of step word i (R129 steps 2 to 5); a programming that does not end whole leaves the shadow. -/
def blowGroup (n i g : Nat) (e : FuseEnd) (d : Dev) : Dev :=
  let d := { d with fuse := { d.fuse with cells := modAt d.fuse.cells i (programCell n g e) } }
  if e = .programmed then remeasure (senseBits i (groupMask n g) d) else d

/-- Programs a sealed word once. -/
def sealWord (i : Nat) (v : Word) (d : Dev) : Dev :=
  remeasure (senseBits i (BitVec.allOnes 48) { d with fuse := { d.fuse with
    cells := modAt d.fuse.cells i (fun _ => { copy0 := v, copy1 := v }) } })

-- Drift (R137)

/-- The restrictive value of two resolved values of a restriction word, group by group or bit by bit. -/
def restrictive (i : Nat) (a b : Word) : Word :=
  if stepSize i ≠ 0 then
    orWords ((List.range (stepGroups i)).map (fun g =>
      let x := groupBlown (stepSize i) g a
      let y := groupBlown (stepSize i) g b
      if (x && y) || (x != y && blownRestrictive i g) then groupMask (stepSize i) g else 0))
  else if i == 0x0D then a &&& b else a ||| b

/-- Bits or groups of a word that a drift marks marginal. -/
def driftBits (i : Nat) (a b : Word) : Word :=
  if stepSize i ≠ 0 then
    orWords ((List.range (stepGroups i)).map (fun g =>
      if groupBlown (stepSize i) g a != groupBlown (stepSize i) g b then groupMask (stepSize i) g else 0))
  else BitVec.allOnes 48

def addMarginal (i : Nat) (m : Word) (l : List (Nat × Word)) : List (Nat × Word) :=
  if m == 0 then l
  else if l.any (fun x => x.1 == i) then modWhere (fun x => x.1 == i) (fun x => (i, x.2 ||| m)) l else l ++ [(i, m)]

/-- Words whose re-sense resolves differently from the shadow. -/
def drifted (d : Dev) (rs : List Resolved) : List Nat :=
  (List.range 96).filter (fun i => (rs.getD i {}).unusable != d.fuse.unusable.contains i ||
    (!(rs.getD i {}).unusable && (rs.getD i {}).value != d.shadow i))

/-- The shadow after a re-sense: restriction words take the restrictive value, others keep theirs; marginal words stay so until
the next start. -/
def keepShadow (rs : List Resolved) (d : Dev) : Dev :=
  let ds := drifted d rs
  remeasure { d with fuse := { d.fuse with
    drifted := ds.foldl (fun l i => if l.contains i then l else l ++ [i]) d.fuse.drifted
    shadow := d.fuse.shadow.mapIdx (fun i w => if ds.contains i && isRestriction i then restrictive i w (rs.getD i {}).value else w)
    marginal := ds.foldl (fun l i => addMarginal i (driftBits i (d.shadow i) (rs.getD i {}).value) l)
      ((marginalList rs).foldl (fun l m => addMarginal m.1 m.2 l) d.fuse.marginal) } }

-- Band crossings (R136)

/-- Thresholds in degC. -/
def bands : List Int := [0, 40, 80, 120]

/-- Above each threshold after the hottest sensor reads `temp` in 1/16 degC. -/
def bandsAt (old : List Bool) (temp : Int) : List Bool :=
  bands.mapIdx (fun i t => if old.getD i false then decide ((t - 2) * 16 < temp) else decide (t * 16 ≤ temp))

def setTemp (temp : Int) (d : Dev) : Dev :=
  { d with
    power := { d.power with temps := List.replicate 4 temp }
    mgmt := { d.mgmt with minTemp := min d.mgmt.minTemp temp, maxTemp := max d.mgmt.maxTemp temp } }

end Sys2Proof.Machine
end

