-- ==== Sys2Proof/Machine/Attest.lean ====
section
/-! DEFINITION. Attestation and challenge-response (12_attestation): class 0x0B. What the spec leaves
open here is DEDUCED, log 54. -/
namespace Sys2Proof.Machine

-- The allowance of R530

def attWindow (d : Dev) : AttestState :=
  if d.att.window == d.now / 4096 then d.att else { d.att with window := d.now / 4096, statements := 0, responses := 0 }

/-- One statement of the window's 8, or BUSY_RETRY. -/
def takeStatement (d : Dev) : Res Dev :=
  let a := attWindow d
  if a.statements < 8 then .ok { d with att := { a with statements := a.statements + 1 } } else rej St.busyRetry

/-- One response of the window's 32, or BUSY_RETRY. -/
def takeResponse (d : Dev) : Res Dev :=
  let a := attWindow d
  if a.responses < 32 then .ok { d with att := { a with responses := a.responses + 1 } } else rej St.busyRetry

-- Certificates (R517-R519); their DER form is X.690's and RFC 5280's (PRESUMED, log 11)

/-- Bytes of a DER value by its own header, and of that header. -/
def derSpan (bs : List Byte) : Nat × Nat :=
  let b (i : Nat) : Nat := (bs.getD i 0).toNat
  if b 1 < 0x80 then (2 + b 1, 2)
  else if b 1 = 0x81 then (3 + b 2, 3)
  else if b 1 = 0x82 then (4 + b 2 * 256 + b 3, 4)
  else (0, 0)

def derLength (bs : List Byte) : Nat := (derSpan bs).1

/-- Tags and contents of the first n values of a DER sequence. -/
def derItems : Nat → List Byte → List (Byte × List Byte)
  | 0, _ => []
  | n + 1, bs =>
    let s := derSpan bs
    if s.1 = 0 ∨ bs.length < s.1 then [] else (bs.headD 0, (bs.take s.1).drop s.2) :: derItems n (bs.drop s.1)

/-- Contents of the i-th value of a DER sequence. -/
def derItem (i : Nat) (bs : List Byte) : List Byte := ((derItems (i + 1) bs).getD i (0, [])).2

/-- Subject public key of a certificate, as R421 encodes it: an elliptic-curve point goes without its prefix byte. -/
def certSubject (c : List Byte) : List Byte :=
  let tbs := derItem 0 (derItem 0 c)
  let version := ((derItems 1 tbs).headD (0, [])).1 == 0xA0
  let k := (derItem 1 (derItem (if version then 6 else 5) tbs)).drop 1
  if k.headD 0 == 0x04 && k.length == 97 then k.drop 1 else k

def certAt (d : Dev) (i : Nat) : Option (List Byte) :=
  match i with
  | 0 => d.att.cert0
  | 1 => d.att.cert1
  | 2 => d.att.cert2
  | _ => none

/-- ATTEST_CERT (R538). -/
def execAttestCert (r : Req) (s : State) : Out :=
  hostCmd 0x0B01 r (fun _ => .ok ()) (fun d => do
    param (r.sized 1 && onlyBits (r.w 0) [(7, 0)] && decide (r.f 0 7 0 ≤ 2))
    match certAt d (r.f 0 7 0) with
    | some c => okBytes d (word c.length :: bytesWords c) (6 + c.length)
    | none => rej St.policyRefused) s

/-- Owner, in MANUFACTURE, with a MAC. -/
def needFactoryOwner (r : Req) (d : Dev) : Res Unit := need (r.tenant == 0 && r.inSession && d.lifecycle = .manufacture) St.policyRefused

/-- Device keys of programs 0x0B and 0x22, and DEVKEY, the digest of the P-384 public key. -/
def keygenBody (d : Dev) : Res (Dev × Done) :=
  let (b, d) := drawBytes 56 d
  let ec := scalarFrom 0x11 b
  let (pq, d) := drawBytes 32 d
  let k : DeviceKey := { ecPrivate := ec, ecPublic := publicKey 0x11 ec, pqPrivate := pq, pqPublic := publicKey 0x22 pq }
  let d := ((bytesWords (sha384 k.ecPublic)).zipIdx).foldl (fun d x => sealWord (0x20 + x.2) x.1 d)
    { d with att := { d.att with key := some k } }
  okWords d (bytesWords k.ecPublic ++ bytesWords k.pqPublic)

/-- ATTEST_KEYGEN (R517): the two device keys, and DEVKEY under the window of R128. -/
def execAttestKeygen (r : Req) (s : State) : Out :=
  hostCmd 0x0B10 r (needFactoryOwner r) (fun d => do
    param (r.len == 0)
    need (!(List.range 8).any (fun i => d.shadow (0x20 + i) != 0)) St.policyRefused
    need (fuseWindow d) St.busyRetry
    need (anyEngine d && d.sym.randomOk) St.internalFault
    untilEngine d (keygenBody d)) s

/-- Longest certificate of an index (R519). -/
def certLimit (i : Nat) : Nat := if i == 0 then 2048 else if i == 1 then 8192 else 4096

/-- The certificate may stand at the index (R518). -/
def certFits (d : Dev) (i : Nat) (c : List Byte) : Bool :=
  match i with
  | 0 => d.att.key.any (fun k => certSubject c == k.ecPublic)
  | 1 => d.att.key.any (fun k => certSubject c == k.pqPublic)
  | _ => i == 2

def setCert (i : Nat) (c : List Byte) (d : Dev) : Dev :=
  match i with
  | 0 => { d with att := { d.att with cert0 := some c } }
  | 1 => { d with att := { d.att with cert1 := some c } }
  | _ => { d with att := { d.att with cert2 := some c } }

/-- ATTEST_CERT_WRITE (R518, R519). -/
def execAttestCertWrite (r : Req) (s : State) : Out :=
  hostCmd 0x0B11 r (needFactoryOwner r) (fun d => do
    let i := r.f 0 7 0
    let n := r.f 0 31 16
    param (onlyBits (r.w 0) [(31, 16), (7, 0)] && decide (i ≤ 2) && decide (1 ≤ n) && decide (n ≤ certLimit i) && tailOk r 1 n)
    param (certFits d i (r.bytesFrom 1 n))
    okNone (setCert i (r.bytesFrom 1 n) d)) s

-- The signed statement (R520-R523, R531-R537)

def componentDigest (d : Dev) (t : Nat) : List Byte := ((d.fw.running.find? (fun c => c.ctype == t)).map (·.digest)).getD []

/-- The ten measurements in the order of R521. -/
def measurements (d : Dev) : List (List Byte) :=
  [d.boot.mRom, componentDigest d 1, componentDigest d 2, componentDigest d 3, componentDigest d 4, componentDigest d 5,
    d.boot.mPattern, d.boot.mFuse, d.boot.mLifecycle, journalHead d]

/-- Build identifier of the running bundle. -/
def runningBuild (d : Dev) : Nat := bBuild d.fw.header

/-- A7: the main stream's next number, or the one that an append in phase 1 has taken (R520, R532). -/
def statementSeq (d : Dev) : Word :=
  (d.nvm.writes.findSome? (fun w => match w.effect with
    | .record x => if x.main && !x.done then some x.seq else none
    | _ => none)).getD d.jrn.main.nextSeq

/-- A0 to A97 (R520). -/
def statementBody (d : Dev) (hybrid : Bool) (nonce : List Word) : List Word :=
  [mkWord [(47, 40, 1), (39, 32, d.lifecycle.code), (31, 24, d.orderByte), (16, 16, flag hybrid), (17, 17, flag d.boot.fallback),
      (18, 18, flag d.fw.handover.isSome), (19, 19, flag d.jrn.hemDeferred), (15, 0, 10)]]
    ++ d.serial ++ [d.time.tick, mkWord [(47, 24, d.pat.gen), (23, 22, d.time.quality.code), (21, 15, d.secVersion)],
      mkWord [(47, 24, d.boot.secMinor)], tamperSummary d, statementSeq d, d.jrn.tamper.nextSeq, mkWord [(31, 0, runningBuild d)]]
    ++ fitW 8 nonce ++ (measurements d).flatMap (fun m => fitW 8 (bytesWords (fit 48 m)))

/-- Both tries of a signature program failed their check: on each engine that was in service (R417, R536). -/
def statementFailed (d : Dev) : Dev :=
  ((List.range 2).filter (engineServes d)).foldl (fun d e => checkFailed e d) d

/-- The signature block of a statement (R522). -/
def signStatement (k : DeviceKey) (hybrid : Bool) (body : List Word) (d : Dev) : Res (Dev × Done) :=
  let msg := ascii [0x4B, 0x56, 0x34, 0x38, 0x35, 0x36, 0x41, 0x54] ++ wordsBytes body
  let (sig, d) := makeSignature 2 k.ecPrivate (sha384 msg) 0 d
  let sig := fitW 16 (bytesWords sig)
  if hybrid then
    let (pq, d) := makeSignature 9 k.pqPrivate msg 0 d
    okWords d (body ++ sig ++ fitW 552 (bytesWords pq))
  else okWords d (body ++ sig)

/-- ATTEST_STATEMENT (R523, R530, R534-R537). -/
def execAttestStatement (r : Req) (outputOk : Bool) (s : State) : Out :=
  hostCmd 0x0B02 r (fun _ => .ok ()) (fun d => do
    need (!d.identityMarginal) St.fuseMarginal
    let hybrid := bitOf (r.w 0) 0
    param (r.sized 9 && onlyBits (r.w 0) [(0, 0)] && (!hybrid || d.att.cert1.isSome))
    need (anyEngine d && d.sym.randomOk) St.internalFault
    let taken ← takeStatement d
    match d.att.key with
    | none => rej St.policyRefused
    | some k => untilEngine d (if !outputOk then .ok (statementFailed taken, .reply St.internalFault [] 0)
        else signStatement k hybrid (statementBody taken hybrid (slice r.words 1 8)) taken)) s

-- Challenge-response (R524-R529)

/-- The entry of a verifier class in the pattern: its epoch word and name words. -/
def classEntry (img : List Word) (cls : Nat) : Option (List Word) :=
  (chunksOf 8 (fld (wd img 15) 47 40) (img.drop 96)).find? (fun e => fld (wd e 0) 47 32 == cls && cls != 0)

/-- The class secret (R524). -/
def classSecret (d : Dev) (e : List Word) : List Byte :=
  let label := mkWord [(47, 40, 3), (39, 24, fld (wd e 0) 47 32), (23, 0, fld (wd e 0) 31 8)] :: fitW 7 (e.drop 1)
  kdf ((baseKey d).getD []) (ascii (kvDash ++ [0x56, 0x45, 0x52, 0x49, 0x46, 0x49, 0x45, 0x52])) (wordsBytes label) 256

/-- The activity word (R525, R526). -/
def activityWord (d : Dev) : Word :=
  let v := d.jrn.driver
  let c := d.jrn.codriver
  mkWord [(47, 46, (v.map (·.1)).getD 0), (45, 45, (v.map (·.2)).getD 0), (44, 43, (c.map (·.1)).getD 0), (42, 42, (c.map (·.2)).getD 0),
    (41, 41, flag d.dist.moving), (40, 40, flag v.isNone), (39, 39, flag c.isNone), (23, 0, d.dist.speed)]

/-- The status word of a selection bit. -/
def statusWord (d : Dev) (b : Nat) : Word :=
  match b with
  | 0 => activityWord d
  | 1 => d.jrn.main.nextSeq
  | 2 => tamperSummary d
  | _ => mkWord [(47, 46, d.time.quality.code), (39, 0, min (uncertainty d.time) (2 ^ 40 - 1))]

/-- R0 up to the last status word (R525). -/
def responseBody (d : Dev) (cls mask : Nat) : List Word :=
  mkWord [(47, 32, cls), (31, 24, 1), (8, 8, flag (d.wordMarginal 2 || d.wordMarginal 3)), (7, 0, mask)]
    :: d.serial ++ [d.time.tick] ++ ((List.range 4).filter (fun b => mask / 2 ^ b % 2 == 1)).map (statusWord d)

/-- The MAC of R527. -/
def responseMac (secret challenge : List Byte) (body : List Word) : List Byte :=
  cmac secret (ascii [0x4B, 0x56, 0x34, 0x38, 0x35, 0x36, 0x43, 0x52] ++ challenge ++ wordsBytes body)

/-- CHALLENGE_RESPOND (R525-R530). -/
def execChallengeRespond (r : Req) (s : State) : Out :=
  hostCmd 0x0B03 r (fun _ => .ok ()) (fun d => do
    let cls := r.f 0 47 32
    let mask := r.f 0 7 0
    param (r.sized 4 && onlyBits (r.w 0) [(47, 32), (3, 0)] && operandOk r 1 16)
    let d ← takeResponse d
    match classEntry (d.image r.gen) cls with
    | none => rej St.policyRefused
    | some e => do
      need (baseReachable d && d.keys.derivationOk) St.internalFault
      let body := responseBody d cls mask
      okWords d (body ++ fitW 3 (bytesWords (responseMac (classSecret d e) (r.bytesFrom 1 16) body)))) s

/-- VERIFIER_SECRET_EXPORT (R524). -/
def execVerifierSecretExport (r : Req) (s : State) : Out :=
  hostCmd 0x0B12 r (fun _ => need (r.tenant == 0 && r.admin && r.enc) St.policyRefused) (fun d => do
    param (r.sized 1 && onlyBits (r.w 0) [(15, 0)])
    match classEntry (d.image r.gen) (r.f 0 15 0) with
    | none => rej St.policyRefused
    | some e => do
      need (baseReachable d && d.keys.derivationOk) St.internalFault
      okBytes d (bytesWords (classSecret d e)) 36) s

end Sys2Proof.Machine
end

