-- ==== Sys2Proof/Machine/Lifecycle.lean ====
section
/-! DEFINITION. Lifecycle transitions and their entry actions (R119-R130, R171, R172), FUSE_RESENSE. -/
namespace Sys2Proof.Machine

-- Entry actions

/-- Base key, persistent key store, device keys and certificates are zeroised; a pending copy in the key store goes with them. -/
def zeroisePersistent (d : Dev) : Dev :=
  let d := eraseSlots (fun s => isPersistent s.index) d
  { d with
    keys := { d.keys with cellsA := none, cellsB := none, hearts := [] }
    att := { d.att with key := none, cert0 := none, cert1 := none, cert2 := none }
    succ := { d.succ with pending := none } }

/-- Operand memory is cleared: the commands whose programs held it end, and so do the RSA operations (DESIGN CHOICE, log 68: the
spec gives no status). -/
def clearOperands (d : Dev) : Dev :=
  let js := (d.pk.engines.filterMap (·.job) ++ d.pk.waiting).filter (fun j => !j.abandoned)
  let d := { d with pk := { engines := d.pk.engines.map (fun e => { e with job := none }), waiting := [] } }
  let d := js.foldl (fun d j => match j.work with
    | .rsa _ => d
    | _ => refuseWith j.req St.policyRefused 0 d) d
  finishWhere (fun l => l.kind == 5) .failed St.policyRefused d

/-- The key cache and operand memory too. -/
def zeroiseAll (d : Dev) : Dev :=
  let d := eraseSlots (fun _ => true) (clearOperands (zeroisePersistent d))
  d.keys.staged.foldl (fun d x => dropStaged x.id false d) d

/-- The factory pattern retires: the highest stored generation becomes current, its K1 takes the switch tick (R568). -/
def retireFactory (d : Dev) : Dev :=
  match highestBank d with
  | none => d
  | some inB =>
    let b := { bank d inB with k1 := d.now }
    let d := adopt b.image b.gen d.now inB (setBank inB b d)
    attnBoth Attn.pattern (patternRecord b.gen 0 2 d.now b.digest { d with pat := { d.pat with old := none } })

/-- The SEAL record, whose LASTSEQ is its own number; the main segment closes and later records go to the tamper stream (R639, R641). -/
def sealMain (d : Dev) : Dev :=
  if d.jrn.sealed then d
  else
    let peer := (wd d.succ.peer 0).toNat + (wd d.succ.peer 1).toNat * 2 ^ 48
    let try' (n : Nat) : Appended × Dev :=
      appendAt 0x61 d.time.quality.code 1 (stamp d [Int.ofNat peer, Int.ofNat n]) (.bits []) d
    let d := match try' d.jrn.main.nextSeq.toNat with
      | (.written _ _ s, x) => if s = d.jrn.main.nextSeq then x else (try' s.toNat).2
      | (_, x) => x
    let d := closeSegment true d
    { d with jrn := { d.jrn with sealed := true } }

/-- Entry actions of DEPARTED: seal and hem, each taken when it is absent (R641). -/
def departEntry (d : Dev) : Dev :=
  if d.jrn.sealed then d
  else
    let d := sealMain d
    writeHem { d with succ := { d.succ with sealSeq := d.jrn.main.nextSeq - 1, sealHead := journalHead d } }

/-- Entry actions of a state but for the completion record (R119). -/
def entryActions (dest : Lifecycle) (d : Dev) : Dev :=
  match dest with
  | .personalised => retireFactory d
  | .returned => zeroiseAll d
  | .departed => let d := departEntry d; alertBit Alert.succession { d with succ := { d.succ with state := 3 } }
  | .scorched => zeroisePersistent d
  | _ => d

/-- Notes a transition that no journal takes in the health store (R122, R495). -/
def noteTransition (a b : Lifecycle) (d : Dev) : Dev :=
  { d with mgmt := { d.mgmt with transitions := d.mgmt.transitions ++ [(d.now, a.code, b.code)] } }

/-- The completion record and, for RETURNED and SCORCHED, the close of each stream's open segment (R122). -/
def completion (a b : Lifecycle) (phase : Nat) (d : Dev) : Dev :=
  if !journalOpen d then noteTransition a b d
  else
    let d := lifecycleRecord a b phase d
    if b = .returned ∨ b = .scorched then closeJournal d else d

/-- The intent record and the transition marker (R120) (DEDUCED, log 49). -/
def openTransition (dest : Lifecycle) (d : Dev) : Dev :=
  let a := d.lifecycle
  let d := lifecycleRecord a dest 0 d
  { d with boot := { d.boot with marker := some dest, markerFrom := a } }

def programState (dest : Lifecycle) (e : FuseEnd) (d : Dev) : Dev := blowGroup 6 0 (dest.code - 1) e d

/-- Clears the marker with the completion record. -/
def closeTransition (dest : Lifecycle) (phase : Nat) (d : Dev) : Dev :=
  let d := completion d.boot.markerFrom dest phase d
  { d with boot := { d.boot with marker := none, markerActive := false } }

/-- The steps of R129 and the entry actions, on a group that programs. -/
def transit (dest : Lifecycle) (d : Dev) : Dev := closeTransition dest 1 (remeasure (entryActions dest (programState dest .programmed (openTransition dest d))))

-- Class 0x02 commands (R171, R172)

/-- LIFECYCLE_READ. -/
def execLifecycleRead (r : Req) (s : State) : Out :=
  hostCmd 0x02F0 r (fun _ => needTenant r) (fun d => do
    param (r.len == 0)
    okWords d [mkWord [(47, 40, d.lifecycle.code), (39, 32, d.orderByte), (0, 0, flag (d.boot.marker.isSome || d.boot.scorchPending))],
      word d.secVersion, word d.boot.secMinor, word d.boot.lastCause.toNat,
      mkWord [(7, 0, d.boot.progress.toNat), (8, 8, flag (!d.fuse.marginal.isEmpty || !d.fuse.unusable.isEmpty))]]) s

/-- The next state of the lifecycle transitions table that LIFECYCLE_ADVANCE may name (R123). -/
def nextState : Lifecycle → Option Lifecycle
  | .manufacture => some .personalised
  | .personalised => some .field
  | .field => some .returned
  | _ => none

/-- Staged pattern edits, or a commit that has not switched (R569). -/
def patternStaged (d : Dev) : Bool := (d.pat.staging.map (fun s => s.edits != 0)).getD false || commitPending d

def devkeyProgrammed (d : Dev) : Bool := (List.range 8).any (fun i => d.shadow (0x20 + i) != 0)

/-- A live FW_STAGE operation, the one kind of class 0x0D. -/
def fwStaging (d : Dev) : Bool := d.sched.longs.any (fun l => l.kind == 3 && !l.state.final)

/-- A record whose two-phase append has not been committed awaits its commit or its voiding (R445, R446) (DEDUCED, log 69). -/
def voidPending (d : Dev) : Bool := d.nvm.writes.any (fun w => match w.effect with
  | .record x => !x.done
  | _ => false)

/-- The first failing precondition of R125, 0 for none. -/
def advanceReason (dest : Lifecycle) (d : Dev) : Nat :=
  match dest with
  | .personalised =>
    if d.att.key.isNone then 0x20 else if d.att.cert0.isNone then 0x21 else if (highestBank d).isNone then 0x22
    else if (slotAt d 1 0xF00).isNone then 0x23 else if !devkeyProgrammed d then 0x24 else 0
  | .field => if d.time.quality ≠ .confirmed then 0x25 else if voidPending d then 0x26 else if patternStaged d then 0x27 else 0
  | .returned => if fwStaging d then 0x28 else 0
  | _ => 0

/-- R127. -/
def noSuccessionOrHandover (d : Dev) : Res Unit :=
  need (!(d.succ.state == 1 || d.succ.state == 2) && d.fw.handover.isNone) St.busyRetry

/-- A programming step that does not end whole: a bit that still reads unblown is reported (R129 step 3); one that PF_N or RESET_N
stops leaves its command to what follows there (R46, R50, R222). -/
def fuseStopped (e : FuseEnd) (d : Dev) : Res (Dev × Done) :=
  match e with
  | .stuck _ _ => .ok (raiseFault 6 d, .reply St.internalFault [] 0)
  | _ => .ok (d, .wait)

def confirmOk (d : Dev) (w : Word) : Bool := fld w 39 0 == fld (d.shadow 2) 39 0

/-- LIFECYCLE_ADVANCE (R123-R129). A step that stops leaves the transition open (R120). -/
def execLifecycleAdvance (r : Req) (fuse : FuseEnd) (s : State) : Out :=
  hostCmd 0x02F1 r (fun _ => needOwner r) (fun d => do
    noSuccessionOrHandover d
    param (r.sized 1 && (nextState d.lifecycle).isSome && (nextState d.lifecycle).map Lifecycle.code == some (r.f 0 47 40))
    param (confirmOk d (r.w 0))
    let dest := (nextState d.lifecycle).getD .blank
    need (fuseWindow d) St.busyRetry
    need (advanceReason dest d == 0) St.policyRefused (advanceReason dest d)
    if fuse ≠ .programmed then fuseStopped fuse (programState dest fuse (openTransition dest d))
    else okWords (transit dest d) [mkWord [(47, 40, dest.code)]]) s

/-- The reason of R126 for OPTION_PROGRAM, 0 for none. -/
def optionReason (gs : Nat) (d : Dev) : Nat :=
  if gs % 2 == 1 && !fallbackHybrid d then 0x29
  else if !(d.lifecycle = .personalised || d.lifecycle = .field) then 0x2A
  else if gs / 2 % 2 == 1 && (d.optionMarginal 2 || d.optionMarginal 3) then 0x2B else 0

/-- Groups in programming order: the locked-mode groups come before a boot lock named with them (R172). -/
def optionOrder (gs : Nat) : List Nat :=
  let named (l : List Nat) : List Nat := l.filter (fun g => gs / 2 ^ g % 2 == 1)
  if gs / 2 % 2 == 1 && gs / 4 != 0 then named [0, 2, 3, 1] else named [0, 1, 2, 3]

/-- Groups in order up to the first that does not end whole, and how that one ends. -/
def blowOptions (fails : Option (Nat × FuseEnd)) : List Nat → Dev → Dev × FuseEnd
  | [], d => (d, .programmed)
  | g :: gs, d =>
    let e := ((fails.filter (fun x => x.1 == g)).map (·.2)).getD .programmed
    if e = .programmed then blowOptions fails gs (blowGroup 4 1 g e d) else (blowGroup 4 1 g e d, e)

/-- OPTION_PROGRAM (R127-R129, R172, R588). -/
def execOptionProgram (r : Req) (fails : Option (Nat × FuseEnd)) (s : State) : Out :=
  hostCmd 0x02F2 r (fun _ => needOwner r) (fun d => do
    noSuccessionOrHandover d
    let gs := r.f 0 3 0
    param (r.sized 2 && onlyBits (r.w 0) [(3, 0)] && onlyBits (r.w 1) [(39, 0)] && confirmOk d (r.w 1) &&
      !((List.range 4).any (fun g => gs / 2 ^ g % 2 == 1 && d.optionBlown g)))
    need (fuseWindow d) St.busyRetry
    need (optionReason gs d == 0) St.policyRefused (optionReason gs d)
    let p := blowOptions fails (optionOrder gs) d
    if p.2 = .programmed then okWords p.1 [p.1.shadow 1] else fuseStopped p.2 p.1) s

/-- A state that sensing alone has moved on: its zeroising runs at once, its completion record is owed until SEC runs (R29, R119,
R122). -/
def sensedOn (old : Lifecycle) (d : Dev) : Dev :=
  let dest := d.lifecycle
  let d := if dest = .returned then zeroiseAll d else if dest = .scorched then zeroisePersistent d else d
  { d with boot := { d.boot with marker := some dest, markerFrom := old } }

/-- A drift that moves the resolved lifecycle on: the state's entry actions at once and its completion record (R138). -/
def driftState (old : Lifecycle) (d : Dev) : Dev :=
  if d.lifecycle = old ∨ d.lifecycle.code ≤ old.code then d
  else if !d.boot.running then sensedOn old d
  else completion old d.lifecycle 1 (remeasure (entryActions d.lifecycle d))

/-- The drift's record comes before the completion record, although a response that it has begun would write it later (R138, R491). -/
def driftFirst (d : Dev) : Dev :=
  match d.tamper.waiting.find? (fun x => x.src == Src.drift) with
  | some x => tamperRecord x { d with tamper := { d.tamper with waiting := d.tamper.waiting.erase x } }
  | none => d

/-- The device senses fuses on a band crossing: powered, and past the first sensing of its start (R136). -/
def resenses (d : Dev) : Bool :=
  (d.power.state = .active || d.power.state = .idle || d.power.state = .standby) && d.boot.progress != 0 && d.boot.progress != 1

/-- A combination that the interactions table says cannot occur: a succession role outside FIELD, or a handover where no firmware runs
or may be staged (R30). -/
def outsideMatrix (d : Dev) : Bool :=
  ((d.succ.state == 1 || d.succ.state == 2) && d.lifecycle != .field) ||
    (d.fw.handover.isSome && (d.lifecycle = .blank || d.lifecycle = .scorched))

/-- R30: the commands in progress end with INTERNAL_FAULT, the fault is reported and journalled, and the device restarts. -/
def matrixFault (d : Dev) : Dev :=
  let d := d.cmds.foldl (fun d r => complete r St.internalFault [] 0 d) { d with cmds := [] }
  restart 5 Cause.fault (journalFault 17 d)

/-- FUSE_RESENSE (R136-R138) (DEDUCED, log 46); a state outside the matrix that it brings about is answered as R30 says. -/
def execFuseResense (temp : Int) (reads : List FuseRead) (s : State) : Out :=
  liftR (fun d =>
    if !resenses d then (d, false)
    else
      let a := bandsAt d.fuse.above temp
      let crossed := a != d.fuse.above
      let d := setTemp temp { d with fuse := { d.fuse with above := a } }
      if !crossed then (d, false)
      else
        let old := d.lifecycle
        let rs := senseAll d reads
        let ds := drifted d rs
        let d := logAt Core.sec 88 (word (Config.unstated 88 [])) (word ds.length) false (keepShadow rs d)
        match ds with
        | [] => (d, false)
        | i :: _ =>
          let moved := decide (old.code < d.lifecycle.code)
          let d := tamperEvent Src.drift i d
          let d := driftState old (if moved then driftFirst d else d)
          if d.boot.running && outsideMatrix d then (matrixFault d, true) else (d, false)) s

end Sys2Proof.Machine
end

