-- ==== Sys2Proof/Machine/Response.lean ====
section
/-! DEFINITION. The L2 and L3 sequences (R491-R505) and the loss of VDD that can cut them short. -/
namespace Sys2Proof.Machine

/-- VAON switches to VBAT: a held VDD_UNDER confirmation is discarded (R479), the open L3 latch stays (R493). -/
def enterBackup (d : Dev) : Dev :=
  let l3 := d.tamper.l3Latch || d.tamper.response == some 3
  let d := { d with boot := { d.boot with offSince := some ((d.boot.offSince).getD d.now) } }
  let d := powerDown .backup (abortOutgoing (abortHandover 2 d))
  { d with tamper := { d.tamper with underHold := none, l3Latch := l3 }, power := { d.power with pfn := false } }

/-- Confirmations in the order of their ticks, and of their sources within a tick (R23, R496). -/
def inTickOrder (l : List Latch) : List Latch := l.mergeSort (fun a b => decide (a.tick * 32 + a.src ≤ b.tick * 32 + b.src))

/-- The L2 response of these confirmations has executed: responded bits, and the bar on heart keys while a source stays confirmed
(R499, R505); an event source is clear at once (R477). -/
def markResponded (l : List Latch) (d : Dev) : Dev :=
  let ss := (l.filter (fun x => decide (2 ≤ x.level) && !isEvent x.src)).map (·.src)
  let d := l.foldl (fun d x => if 2 ≤ x.level then modSrc x.src (fun t => { t with responded := true }) d else d) d
  { d with tamper := { d.tamper with barred := d.tamper.barred.filter (fun s => !ss.contains s) ++ ss } }

/-- Group 5 is programmed, or the SCORCHED marker stands in for it and the L3 latch stays set (R492). -/
def scorchFuse (e : FuseEnd) (d : Dev) : Dev :=
  let win := fuseWindow d
  let d := if win then programState .scorched e d else d
  if win && e = .programmed then
    { d with tamper := { d.tamper with l3Latch := false }, boot := { d.boot with scorchPending := false } }
  else
    let d := if e ≠ .programmed then raiseFault 7 d else d
    remeasure { d with tamper := { d.tamper with l3Latch := true }, boot := { d.boot with scorchPending := true } }

/-- Phases 7 to 10; in RETURNED, whose journal is read-only, phases 9 and 10 alone (R495). An open transition is abandoned (R640). -/
def scorch (e : FuseEnd) (d : Dev) : Dev :=
  let a := d.lifecycle
  let d := if journalOpen d then writeHem (lifecycleRecord a .scorched 0 d) else d
  let d := scorchFuse e (zeroisePersistent d)
  completion a .scorched 1 { d with boot := { d.boot with marker := none, markerActive := false } }

/-- An L3 response ends in SCORCHED but for DEPARTED and a device already there (R486). -/
def takesL3 (l : Nat) (d : Dev) : Bool := l == 3 && !(d.lifecycle = .departed || d.lifecycle = .scorched || d.lifecycle = .blank)

def runResponse (l : Nat) (e : FuseEnd) (d : Dev) : Dev :=
  let xs := inTickOrder d.tamper.waiting
  let d := xs.foldl (fun d x => tamperRecord x (logAt Core.sec 8 (word x.src) (word x.level) false d)) d
  let d := markResponded xs { d with tamper := { d.tamper with response := none, waiting := [] } }
  if takesL3 l d then restart 5 Cause.tamperL3 (scorch e d)
  else restart 5 Cause.tamperL2 { d with tamper := { d.tamper with l3Latch := false } }

/-- A latched confirmation that asks for a response has not been answered. -/
def latchedResponse (d : Dev) : Option Nat :=
  d.tamper.sources.foldl (fun m s => match s.latch with
    | some x => if 2 ≤ x.level ∧ !s.responded then some (max x.level (m.getD 0)) else m
    | none => m) none

/-- TAMPER_RESPONSE_SEQUENCE: phases 1 to 11 after the writes in progress have completed (R447); while the boot ROM runs, the
restart of R162, whose step 2 executes the response (DESIGN CHOICE, log 50). -/
def execTamperResponseSequence (fuse : FuseEnd) (cut : Bool) (s : State) : Out :=
  liftR (fun d =>
    match d.tamper.response with
    | some l =>
      let d := finishWrites d
      if cut then (enterBackup d, true) else (runResponse l fuse d, true)
    | none =>
      if d.power.state = .active && !d.boot.running then
        match latchedResponse d with
        | some l => (restart 5 (if l = 3 then Cause.tamperL3 else Cause.tamperL2) d, true)
        | none => (d, false)
      else (d, false)) s

end Sys2Proof.Machine
end

