-- ==== Sys2Proof/Machine/Boot.lean ====
section
/-! DEFINITION. Start-up: the boot ROM's flow, SEC's initialisation, host pushes and the factory test command (R119, R143-R167). -/
namespace Sys2Proof.Machine

-- Steps 1 to 3

/-- The loss of always-on state: what VAON alone held is gone (R41, R76); NVM content stays. -/
def loseAon (d : Dev) : Dev :=
  let t := d.time
  { d with
    time := { offset := t.offset, adjusts := t.adjusts, leaps := t.leaps, corrections := t.corrections, ckptRows := t.ckptRows
              ckptRow := t.ckptRow, counters := t.counters }
    dist := { d.dist with pulses := 0, moving := false, speed := 0, gateSpeed := 0, recent := [], last := none, previous := none }
    tamper := {}
    jrn := { d.jrn with deferred := [] }
    power := { d.power with aonLost := true }
    boot := { d.boot with cause := 1#11 <<< Cause.aonLost, offSince := none } }

/-- A latch that fails its parity counts as a confirmation of its source (R511), unless the source is disabled (R483). -/
def parityLatch (s : Nat) (d : Dev) : Dev :=
  let l := srcLevel d s
  let x : Latch := { src := s, tick := d.now, dist := d.distance.toNat, value := 0x800000, level := l
                     flags := if srcPattern d s < srcMin d s then 3 else 1 }
  if srcDisabled d s then d else modSrc s (fun t => { t with latch := some x, confirmed := !isEvent s, level := l, value := 0x800000 })
    { d with tamper := { d.tamper with l3Latch := d.tamper.l3Latch || l == 3 } }

/-- A lifecycle state that sensing alone has moved on since the last sensing (R29, R119). -/
def sensedState (old : Lifecycle) (was : Bool) (d : Dev) : Dev :=
  if d.boot.marker.isNone && was && decide (old.code < d.lifecycle.code) then sensedOn old d else d

/-- Completes a pending L3 response (R22, R494): its records follow once SEC runs. -/
def bootL3 (d : Dev) : Dev :=
  let a := d.lifecycle
  let d := scorchFuse .programmed (zeroisePersistent d)
  { d with boot := { d.boot with marker := some .scorched, markerFrom := a, markerActive := false } }

def latches (d : Dev) : List Latch := inTickOrder (d.tamper.sources.filterMap (·.latch))

/-- Step 2. -/
def romResponses (d : Dev) : Dev :=
  if d.tamper.l3Latch && d.boot.scorchPending then d
  else if d.tamper.l3Latch && takesL3 3 d then bootL3 d
  else markResponded ((latches d).filter (fun x => !(srcState d x.src).responded)) { d with tamper := { d.tamper with l3Latch := false } }

/-- A group that resolves as blown has its unblown bits completed (R130). -/
def completeGroups (d : Dev) : Dev :=
  [0, 1, 0x0A, 0x0B, 0x0C].foldl (fun d i =>
    (List.range (programmable i)).foldl
      (fun d g => if groupBlown (stepSize i) g (d.shadow i) then blowGroup (stepSize i) i g .programmed d else d) d) d

/-- The entry actions that the ROM finishes before it fetches firmware (R120); the records that belong to them are SEC's (R14) and
follow at step 12. -/
def romEntry (dest : Lifecycle) (d : Dev) : Dev :=
  match dest with
  | .returned => zeroiseAll d
  | .personalised =>
    (match highestBank d with
     | some inB => setBank inB { bank d inB with k1 := d.now } d
     | none => d)
  | .departed => alertBit Alert.succession { d with succ := { d.succ with state := 3 } }
  | _ => d

/-- Step 3: the open transition's group and entry actions (R120), a SCORCHED marker's group (R492), incomplete steps (R130). -/
def romEntryActions (d : Dev) : Dev :=
  let win := fuseWindow d
  let d := if win then completeGroups d else d
  let d := if d.boot.scorchPending && win then scorchFuse .programmed d else d
  match d.boot.marker with
  | none => d
  | some dest =>
    if dest = .scorched then d
    else
      let d := if win then programState dest .programmed { d with boot := { d.boot with markerActive := false } }
        else { d with boot := { d.boot with markerActive := true } }
      remeasure (romEntry dest d)

-- Step 6 and SEC's repairs

/-- A pending bank is completed: K1 takes the start tick, 0 in MANUFACTURE, and K0 is valid (R553, R565). -/
def completeBank (inB : Bool) (d : Dev) : Dev :=
  let x := bank d inB
  setBank inB { x with k0 := some true, k1 := if inManufacture d then 0 else d.now }
    { d with pat := { d.pat with highest := max d.pat.highest x.gen } }

/-- Phase 1 stopped before the record's head: its words are zeroed and it takes no number (R446). -/
def zeroRecord (x : OpenRecord) (d : Dev) : Dev :=
  modStream x.main (fun st => { st with
    nextSeq := if st.cur.isSome then st.nextSeq - 1 else st.nextSeq, cur := st.cur.map (fun o => { o with body := o.body.take x.position }) }) d

/-- An interrupted write: completed when it stopped in phase 2 or its area finds the content whole, else void (R51, R446, R718). The
TIME_ADJUST record of a completed offset follows once SEC runs (R14, R84). -/
def repairWrite (b : BootIn) (phase2 : Bool) (w : NvmWrite) (d : Dev) : Dev :=
  if phase2 then
    match w.effect with
    | .pattern inB gen _ (some _) => setBank inB { bank d inB with k0 := some true } { d with pat := { d.pat with highest := max d.pat.highest gen } }
    | .pattern _ _ _ none => d
    | .offset v path _ tenant =>
      let old := d.time.offset
      let d := applyOffset v path d
      { d with
        time := { d.time with corrections := d.time.corrections + 1 }
        jrn := { d.jrn with deferred := d.jrn.deferred ++ [{ rtype := 0x32, tq := d.time.quality.code, unstamped := true
                                                             vals := [(path : Int), (tenant.toNat : Int), sInt old, sInt v, 0] }] } }
    | _ => writeDone { w with req := none } d
  else
    match w.effect with
    | .record x => if x.done then d else if !b.recordHead then zeroRecord x d else if b.recordReadable then commitWord x d else voidRecord x d
    | .slot x => dropSlot x.tenant x.index d
    | _ => d

/-- The write calls for a repair of its own: a record whose commit is written needs none, and a bank has the bank repair (R565). -/
def needsRepair (w : NvmWrite) : Bool :=
  match w.effect with
  | .record x => !x.done
  | .pattern _ _ _ _ => false
  | _ => true

/-- An interrupted nonce reservation: completed in phase 2, else void (R718); the counter resumes at the committed limit (R350). -/
def repairReservation (phase2 : Bool) (n : Nonce) : Nonce :=
  if phase2 then { n with next := n.attempted, limit := n.attempted, reserving := false } else reservationVoid n

/-- Step 6: every interrupted write is completed or voided, and each repair is noted for the BOOT record (R51). The cut fell in one
write, the oldest. -/
def repairWrites (b : BootIn) (d : Dev) : Dev :=
  let ws := d.nvm.writes.zipIdx.map (fun x => (x.1, d.nvm.phase2 && x.2 == 0))
  let rs := d.nvm.reservations.zipIdx.map (fun x => (x.1, d.nvm.phase2 && ws.isEmpty && x.2 == 0))
  let n := (ws.filter (fun x => needsRepair x.1)).length + rs.length
  let d := { d with
    boot := { d.boot with repairs := d.boot.repairs + n }, nvm := { d.nvm with writes := [], reservations := [], phase2 := false } }
  let d := ws.foldl (fun d x => repairWrite b x.2 x.1 d) d
  rs.foldl (fun d x => settleReservation (repairReservation x.2) x.1 d) d

/-- The non-current bank (R565). -/
def repairBank (b : BootIn) (inB : Bool) (d : Dev) : Dev :=
  let x := bank d inB
  if x.k0 == some false then
    let d := { d with boot := { d.boot with repairs := d.boot.repairs + 1 } }
    if b.bankConsistent && patternDigest x.image == x.digest then completeBank inB d else setBank inB { x with k0 := none } d
  else d

/-- The tenant record of a tenant that only its kept epoch recalls (R570). -/
def lockedRecord (t : Byte) (e : Nat) : List Word :=
  [mkWord [(47, 40, t.toNat), (39, 32, 2), (31, 24, 3)], mkWord [(47, 40, 1)], 0, mkWord [(23, 0, e)]] ++ List.replicate 16 0

/-- The running image when no bank is valid (R570). -/
def lostImage (d : Dev) : List Word :=
  let others := (d.pat.live.filter (fun e => 2 ≤ e.1.toNat)).mergeSort (fun a b => decide (a.1.toNat ≤ b.1.toNat))
  imageWith ([if d.pat.keptOwner.isEmpty then factoryOwner else d.pat.keptOwner,
    if d.pat.keptRecorder.isEmpty then factoryRecorder else d.pat.keptRecorder] ++ others.map (fun e => lockedRecord e.1 e.2))

/-- No bank is valid. -/
def losePattern (d : Dev) : Dev :=
  let img := lostImage d
  let d := { d with
    pat := { d.pat with image := img, gen := 0, switched := 0 }
    sched := { d.sched with tableBroken := true }
    boot := { d.boot with mPattern := patternDigest img } }
  journalFault 8 (alertBit Alert.pattern (applyFields img d))

/-- In MANUFACTURE the factory pattern runs (R545, R723). -/
def factoryPattern (d : Dev) : Dev :=
  { d with
    pat := { d.pat with image := factoryImage, gen := 0, switched := 0 }
    boot := { d.boot with mPattern := patternDigest factoryImage } }

/-- Runs the pattern of a bank; a switch whose record had not been written gets it now: for a bank found valid that is a repair
(R565), for one that this start has completed it belongs to its repair, and on leaving MANUFACTURE it is the transition's (R568). -/
def runBank (completed inB : Bool) (d : Dev) : Dev :=
  let x := bank d inB
  let prev := d.pat.gen
  let owed := decide (d.jrn.lastPatternRec < x.gen) && !completed && d.boot.marker != some .personalised
  let d := { d with boot := { d.boot with repairs := d.boot.repairs + flag owed } }
  let d := adopt x.image x.gen x.k1 inB d
  let d := { d with pat := { d.pat with old := none } }
  if d.jrn.lastPatternRec < x.gen then
    patternRecord x.gen prev (if d.boot.marker == some .personalised then 2 else fld (wd x.image 2) 47 40) x.k1 x.digest d
  else d

/-- Both banks as the start finds them: lost, or repaired one by one. -/
def findBanks (b : BootIn) (d : Dev) : Dev :=
  if b.banksLost then setBank true { d.pat.bankB with k0 := none } (setBank false { d.pat.bankA with k0 := none } d)
  else repairBank b true (repairBank b false d)

/-- Loads the current pattern (R542, R565, R570) and checks its tenant table (R281). -/
def loadPattern (b : BootIn) (d : Dev) : Dev :=
  let was := d
  let d := findBanks b d
  if inManufacture d then factoryPattern d
  else
    match highestBank d with
    | none => losePattern d
    | some inB => runBank ((bank was inB).k0 == some false) inB d

/-- The lowest pulse count whose distance is at least m (R720). -/
def pulsesFor (x : DistState) (m : Nat) : Nat :=
  if m ≤ x.db.toNat then x.pb.toNat else x.pb.toNat + ceilDiv ((m - x.db.toNat) * x.k) 1000000

/-- AON_STATE_LOSS (R76, R103, R108, R720). The restoration is SEC's, at step 12, and replaces what the counters have counted since
power-up (DESIGN CHOICE, log 71). A copy that was never written is no failed copy: without any, the tick follows the journal's alone
(DESIGN CHOICE, log 72). -/
def restoreAon (b : BootIn) (d : Dev) : Dev :=
  if !d.power.aonLost then d
  else
    let cs := d.time.ckptRows.filterMap id
    let tick := if cs.isEmpty then (if d.jrn.created then d.jrn.maxTick + 1 else d.now)
      else if b.checkpointLost then d.jrn.maxTick + 2 ^ 22
      else max ((cs.map (·.value)).foldl max 0 + 2 ^ 22) (d.jrn.maxTick + 1)
    let p := max ((if b.checkpointLost then [] else cs.map (·.pulses)).foldl max 0) (pulsesFor d.dist d.jrn.maxDist)
    let d := { d with
      time := { d.time with tick := word tick, quality := .unconfirmed, bucket := 0, bucketAt := tick / 512 }
      dist := { d.dist with pulses := word p }
      boot := { d.boot with offSince := if d.jrn.created then some d.jrn.maxTick else none }
      power := { d.power with aonLost := false } }
    if b.checkpointLost && !cs.isEmpty then journalFault 10 d else d

/-- R468: the affected segment closes as it stands, a new one opens, the record and the report follow. A trailer (KIND 2) is that of the
last closed segment, for an open one has none yet (DEDUCED, log 91). -/
def journalCheck (x : Bool × Nat) (d : Dev) : Dev :=
  let closed := (lastClosed d x.1).toNat
  let o := if x.2 = 2 then closed else ((d.stream x.1).cur.map (·.ordinal)).getD closed
  let d := writeDueHem (openSegment x.1 (closeSegment x.1 d))
  raiseFault 11 (secRecord 0x13 [if x.1 then 1 else 2, o, x.2] d)

/-- The other copy of a slot is used and the failed one rewritten from it (R334). -/
def rewriteCopy (x : Slot) (d : Dev) : Dev :=
  let put (y : Slot) (d : Dev) : Dev := { d with keys := { d.keys with slots := modWhere (fun s => refIs x.ref s) (fun _ => y) d.keys.slots } }
  match x.copy0.bind (openCopy d x), x.copy1.bind (openCopy d x) with
  | some m, _ => let p := storeCopy x m d; put { x with copy1 := some p.1 } p.2
  | none, some m => let p := storeCopy x m d; put { x with copy0 := some p.1 } p.2
  | none, none => d

/-- A persistent slot of which one copy failed is rewritten; with both gone it is empty and the loss is journalled (R334). -/
def slotCheck (x : Byte × Nat × Bool) (d : Dev) : Dev :=
  let d := alertBit Alert.keyStore d
  if x.2.2 then journalFault 12 (dropSlot x.1 x.2.1 d)
  else
    match slotAt d x.1 x.2.1 with
    | some y => rewriteCopy y d
    | none => d

/-- Both copies of the key store fail: SEC starts without tenant keys (R167); the flacon epochs stay (DESIGN CHOICE, log 79). -/
def loseKeyStore (d : Dev) : Dev :=
  journalFault 13 (alertBit Alert.keyStore ((d.keys.slots.filter (fun s => isPersistent s.index)).foldl
    (fun d s => dropSlot s.tenant s.index d) d))

/-- SEC's checks of the key store and the derivation path (R165, R167, R289, R299, R336). -/
def initKeys (b : BootIn) (d : Dev) : Dev :=
  let (g, d) := draw d
  let g28 : BitVec 28 := g.setWidth 28
  let d := match keyCells d with
    | some c => if d.keys.lastStore + 2 ^ 28 ≤ d.now then storeBase c.shares d else d
    | none => d
  let d := { d with keys := { d.keys with volGen := if g28 = 0 then 1 else g28, derivationOk := b.derivationOk } }
  let d := b.slotFaults.foldl (fun d x => slotCheck x d) d
  if b.keyStoreLost then loseKeyStore d else d

/-- The SOURCES field: three bits each, flash slot A first (R444). -/
def sourcesField (l : List Nat) : Nat := l.foldl (fun a x => a * 8 + x % 8) 0

/-- BOOT record (R139, R166); the cause bits clear once it has reported them. -/
def bootRecord (d : Dev) : Dev :=
  let d := logAt Core.sec 5 (word d.boot.cause.toNat) 0 false d
  let d := secRecord 0x50 [d.boot.cause.toNat, sourcesField d.boot.sources, d.secVersion, d.boot.secMinor, min 255 d.boot.repairs] d
  let d := match d.boot.offSince with
    | some t => secRecord 0x31 [t, d.boot.cause.toNat] d
    | none => d
  { d with boot := { d.boot with lastCause := d.boot.cause, cause := 0, offSince := none, repairs := 0 } }

/-- Adopted images that were never committed (R598), and a directory that had to be rebuilt (R604). -/
def initDirectory (b : BootIn) (ws : List Word) (d : Dev) : Dev :=
  let d := (if b.directoryLost then [] else d.fw.pendingTypes).foldl (fun d x => fwEvent x.1 5 (3 * 2 ^ 40 + x.2) d) d
  let d := { d with fw := { d.fw with
    pendingTypes := [], committed := if b.directoryLost || d.fw.committed == 0 then bBuild ws else d.fw.committed } }
  if b.directoryLost then journalFault 14 d else d

/-- Latched confirmations reach the journal in the order of their ticks (R23); those of level 1 or more begin at READY (R502). -/
def appendLatches (d : Dev) : Dev :=
  let xs := latches d
  let d := xs.foldl (fun d x => modSrc x.src (fun s => { s with latch := none }) (tamperRecord x d)) d
  if xs.any (fun x => decide (1 ≤ x.level)) then signalTamper d else d

/-- The completion record of a transition finished at start, with the records of its entry actions (R122); one whose group waits for
R128 stays open (R120). -/
def finishTransition (d : Dev) : Dev :=
  match d.boot.marker with
  | none => d
  | some dest => if d.boot.markerActive then d else
    let d := if dest = .departed then departEntry d else if dest = .personalised then attnBoth Attn.pattern d else d
    closeTransition dest 2 d

/-- The region table of the components and of the device's own regions (R143 step 11, R575). -/
def loadRegions (d : Dev) : Dev := { d with fw := { d.fw with regions := regionTable } }

/-- SUPPLY_GLITCH of a core rail that has held start-up: rail 1 and its excursion (R60, R513). -/
def reportCoreRail (d : Dev) : Dev :=
  match d.power.coreFault with
  | some mv => tamperEvent Src.glitch (2 ^ 20 + mv % 2 ^ 20) { d with power := { d.power with coreFault := none } }
  | none => d

/-- Step 13. -/
def publishReady (src : Nat) (d : Dev) : Dev :=
  let d := { d with
    boot := { d.boot with running := true, fallback := src == 5 }
    power := { d.power with state := if d.power.standbyAfter then .standby else .active, standbyAfter := false, workAt := d.now, frameAt := d.now } }
  openPorts (setProgress (if src == 5 then 0x0B else 0x0A) d)

def noteSource (src outcome : Nat) (d : Dev) : Dev := { d with boot := { d.boot with sources := setAt d.boot.sources (src - 1) outcome } }

/-- Steps 11 to 13 on a bundle that passed. -/
def startFirmware (src : Nat) (ws : List Word) (d : Dev) : Dev :=
  let b := d.boot.input
  let d := noteSource src 1 d
  let d := { d with
    fw := { d.fw with running := bComponents ws, header := ws.take 4, source := src }
    boot := { d.boot with push := [], pushStarted := false, rest := [] } }
  let d := restoreAon b (loadRegions d)
  let d := initKeys b d
  let d := b.journalFaults.foldl (fun d x => journalCheck x d) d
  let d := loadPattern b d
  let (h, d) := draw d
  let d := { d with sched := { d.sched with nextHandle := h.setWidth 24 } }
  let d := flushOwed (bootRecord (initDirectory b ws (restoreTrace d)))
  reportCoreRail (publishReady src (finishTransition (flushDeferred (appendLatches d))))

-- Sources (R144-R151, R157, R158)

/-- Waits for a push on a port (R148); ADMIT rises (R182). -/
def waitHost (src : Nat) (rest : List Nat) (d : Dev) : Dev :=
  openPorts <| setProgress 0x05 { d with
    fw := { d.fw with source := src }
    boot := { d.boot with rest := rest, waitSince := d.now, push := [], pushStarted := false, pushHeader := false } }

/-- Recovery: no image passed (R158, R182). -/
def enterRecovery (d : Dev) : Dev :=
  openPorts <| setProgress 0x0C { d with
    fw := { d.fw with source := 0 }, boot := { d.boot with rest := [], push := [], pushStarted := false, pushHeader := false } }

-- The flash port (R36, R146, R147)

def issueFlash (x : FlashRead) (d : Dev) : Dev := { d with fw := { d.fw with flashBus := d.fw.flashBus ++ [x] } }

def slotAddress (src : Nat) : BitVec 24 := if src == 2 then 0x400000 else 0

/-- The flash answers: its pads have their rail and the part is there. -/
def flashAnswers (d : Dev) : Bool := d.power.railA.isSome && !d.boot.input.flashAbsent

/-- Reads a flash slot: the part is released from deep power-down once, the slot is read with four lines, and once more with one line
when the first word is not the magic. -/
def readSlot (src : Nat) (d : Dev) : List Word × Dev :=
  let d := if d.fw.flashBus.isEmpty then issueFlash { command := 0xAB } d else d
  let d := issueFlash { command := 0x6B, address := slotAddress src, dummy := 8 } d
  let ws := if flashAnswers d then slotWords d src else []
  if wd ws 0 == bundleMagic && !d.boot.input.quadMisses.contains src then (ws, d)
  else (ws, issueFlash { command := 0x03, address := slotAddress src } d)

/-- Steps 8 to 10 over the sources that are left. -/
def trySources : List Nat → Dev → Dev
  | [], d => enterRecovery d
  | src :: rest, d =>
    if src = 3 ∨ src = 4 then waitHost src rest d
    else
      let p := if src = 5 then (slotWords d 5, d) else readSlot src d
      let o := judgeBundle p.2 p.1
      if o = 1 then startFirmware src p.1 p.2 else trySources rest (noteSource src o p.2)

/-- The boot mode value (R38, R144, R145). -/
def bootModeOf (b : BootIn) (d : Dev) : Nat :=
  if d.optionBlown 1 then
    flag (d.optionBlown 2 && !d.optionMarginal 2) + 2 * flag (d.optionBlown 3 && !d.optionMarginal 3)
  else if d.power.railM.isNone then 0
  else b.sel.toNat

def sourceOrder (mode : Nat) : List Nat :=
  match mode with
  | 0 => [1, 2, 5]
  | 1 => [3, 5]
  | 2 => [4, 5]
  | _ => [1, 2, 3, 5]

/-- Steps 6 to 10. -/
def romSources (d : Dev) : Dev :=
  let d := repairWrites d.boot.input d
  let m := bootModeOf d.boot.input d
  trySources (sourceOrder m) { d with fw := { d.fw with bootMode := m } }

/-- SEC, which runs the boot ROM, is halted by debug (R163). -/
def romHalted (d : Dev) : Bool := d.dbg.halted.contains 1

/-- The core rail stands within 0.800 V plus or minus 3 % (R60). -/
def coreRailOk (b : BootIn) : Bool := decide (776 ≤ b.coreRail) && decide (b.coreRail ≤ 824)

/-- Steps 1 to 5 and on. -/
def romFlow (b : BootIn) (d : Dev) : Dev :=
  let old := d.lifecycle
  let was := d.fuse.sensed
  let d := setTemp b.temp { d with power := { d.power with vdd := b.vdd }, boot := { d.boot with input := b, sources := [0, 0, 0, 0, 0] } }
  let d : Dev := sensedState old was (loadShadow b.reads { d with fuse := { d.fuse with above := bandsAt d.fuse.above b.temp } })
  let d : Dev := if d.lifecycle = .blank then d else romResponses (b.latchParity.foldl (fun d s => parityLatch s.val d) d)
  let d : Dev := remeasure (romEntryActions d)
  let d : Dev := { d with boot := { d.boot with mRom := Config.romDigest } }
  if d.lifecycle = .blank then setProgress 0x0D d else romSources d

/-- BOOT_ROM_FLOW (R143): from ROM entry until firmware serves, or to the wait of TEST, WAIT_HOST or RECOVERY (DESIGN CHOICE, log 57).
A start from phase 3 or before does not pass phase 3 while the core rail is off (R60), and none leaves phase 5 under PF_N (R42). -/
def execBootRomFlow (b : BootIn) (s : State) : Out :=
  lift (fun d =>
    if d.power.state = .active && !d.boot.running && d.boot.progress == 0x01 && !d.power.pfn && !romHalted d then
      if d.boot.phase ≤ 3 && !coreRailOk b then
        { d with power := { d.power with coreFault := some (max b.coreRail 800 - min b.coreRail 800) } }
      else romFlow b d
    else d) s

/-- FACTORY_TEST_COMMAND (R119, R122, R289, R310): the base key, the journal and its key, and the first LIFECYCLE group. -/
def execFactoryTestCommand (s : State) : Out :=
  lift (fun d =>
    if d.boot.progress == 0x0D && d.lifecycle = .blank && fuseWindow d && !romHalted d then
      let (j, d) := drawBytes 32 (createBase d)
      let (g, d) := takePerGen d
      let (jk, d) := sealSlot { tenant := 1, index := 0xF00, gen := g, ktype := 3, usages := 0x0C, material := j
                                descriptor := mkDesc 3 0x0C false } d
      let d := { d with keys := { d.keys with slots := d.keys.slots ++ [jk] } }
      let d := programState .manufacture .programmed d
      let d := openSegment false (openSegment true { d with jrn := { d.jrn with created := true } })
      romSources (lifecycleRecord .blank .manufacture 1 d)
    else d) s

/-- The ROM waits for a push and may move on: SEC is not halted and PF_N does not hold the fetch (R151, R161, R163). -/
def romWaits (d : Dev) : Bool := d.boot.progress == 0x05 && !d.power.pfn && !romHalted d

/-- WAIT_HOST_TIMEOUT: 10 s without a push (R151). -/
def execWaitHostTimeout (s : State) : Out :=
  lift (fun d =>
    if romWaits d && !d.boot.pushStarted && decide (d.boot.waitSince + 40960 ≤ d.now) then
      trySources d.boot.rest (noteSource d.fw.source 6 d)
    else d) s

/-- BOOT_PUSH_STALL_TIMEOUT: 10 s after the last chunk (R151). -/
def execBootPushStallTimeout (s : State) : Out :=
  lift (fun d =>
    if romWaits d && d.boot.pushStarted && decide (d.boot.lastChunk + 40960 ≤ d.now) then
      trySources d.boot.rest (noteSource d.fw.source 6 d)
    else d) s

-- Pushes (R148-R150, R158, R622)

/-- Total length a push may reach: the header's once its word 1 has arrived, else the largest bundle (R149, R170). -/
def pushLimit (header : Bool) (img : List Word) : Nat := if header then bTotal img else 524288

/-- What a chunk for a source comes to: its status, and whether the bundle that it completes starts. -/
def pushChunk (src : Nat) (ctl : Word) (ws : List Word) (d : Dev) : Byte × Bool × Dev :=
  let at' := fld ctl 31 0
  let img := overlay at' ws d.boot.push
  let header := d.boot.pushHeader || (decide (at' ≤ 1) && decide (1 < at' + ws.length))
  if pushLimit header img < at' + ws.length then (St.frameLength, false, d)
  else
    let d := { d with boot := { d.boot with push := img, pushStarted := true, pushHeader := header, lastChunk := d.now } }
    if !bitOf ctl 47 then (St.ok, false, d)
    else
      let o := judgeBundle d img
      if o = 1 then (St.ok, true, d)
      else (if o = 3 then St.fwRollback else St.fwStageInvalid, false,
        noteSource src o { d with boot := { d.boot with push := [], pushHeader := false } })

/-- BOOT_PUSH (R148-R150, R158): the source of a push in RECOVERY is the port it came in on. -/
def execBootPush (r : Req) (s : State) : Out :=
  lift (fun d =>
    if r ∈ d.cmds ∧ r.opcode = 0x0D00 ∧ !romHalted d then
      let d := { d with cmds := d.cmds.erase r }
      let n := r.words.length - 1
      if d.boot.progress != 0x05 && d.boot.progress != 0x0C then complete r St.opcodeUnknown [] 0 d
      else if !(r.sized (n + 1) && onlyBits (r.w 0) [(47, 47), (31, 0)] && decide (1 ≤ n) && decide (n ≤ 10921)) then
        complete r St.paramRange [] 0 d
      else
        let src := if d.boot.progress == 0x05 then d.fw.source else if r.origin = .port .b then 4 else 3
        let (st, start, d) := pushChunk src (r.w 0) (r.words.drop 1) d
        let img := d.boot.push
        let d := complete r st [] 0 d
        if start then startFirmware src img d else d
    else d) s

end Sys2Proof.Machine
end

