-- ==== Sys2Proof/Machine/Lane.lean ====
section
/-! DEFINITION. How a lane processes its blocks against side channels (R357-R359): basting rounds, byte order, idle, and their choice. -/
namespace Sys2Proof.Machine

-- One round, byte by byte (R359)

/-- The order in which a round processes the 16 state bytes: s, s + d, s + 2d, … modulo 16. -/
def byteOrder (o : Nat × Nat) : List Nat := (List.range 16).map (fun i => (o.1 + i * o.2) % 16)

/-- Where the row shift of a round takes a state byte. -/
def rowTarget (dec : Bool) (p : Nat) : Nat := if dec then (p + 4 * (p % 4)) % 16 else (p + 12 * (p % 4)) % 16

/-- Substitution and row shift, one byte after the other in an order. -/
def byteStep (dec : Bool) (o : Nat × Nat) (s : List Byte) : List Byte :=
  (byteOrder o).foldl (fun t p => setAt t (rowTarget dec p) (sub8 (if dec then aesInv else aesSbox) (s.getD p 0))) (List.replicate 16 0)

def laneRound (dec last : Bool) (o : Nat × Nat) (k s : List Byte) : List Byte :=
  let t := byteStep dec o s
  if dec then (if last then xorBytes t k else mixWith [14, 11, 13, 9] (xorBytes t k))
  else xorBytes (if last then t else mixWith [2, 3, 1, 1] t) k

-- One block (R357, R358)

/-- What the random source chose for a block. -/
structure BlockPlan where
  /-- For each basting round, the number of real rounds before it. -/
  basting : List Nat := []
  /-- Start and odd stride of each round, real and basting in turn; a round without an entry goes in natural order. -/
  orders : List (Nat × Nat) := []
  key : List Byte := []
  idle : Nat := 0
  deriving DecidableEq, Repr

/-- The rounds of a block in their order: a real one has its round key and whether it is the final one; a basting round has none. -/
def roundPlan (ks : List (List Byte)) (basting : List Nat) : List (Option (List Byte × Bool)) :=
  (List.range (ks.length + 1)).flatMap (fun i =>
    List.replicate (basting.count i) none ++ (if i < ks.length then [some (ks.getD i [], i + 1 == ks.length)] else []))

/-- A lane's state register and the copy that a basting round runs on and that is discarded. -/
def laneRun (dec : Bool) (p : BlockPlan) (rounds : List (Option (List Byte × Bool))) (s : List Byte) : List Byte × List Byte :=
  rounds.zipIdx.foldl (fun x r =>
    let o := p.orders.getD r.2 (0, 1)
    match r.1 with
    | some (k, last) => (laneRound dec last o k x.1, x.2)
    | none => (x.1, laneRound dec false o p.key x.1)) (s, [])

/-- A block through a lane under a plan. -/
def laneBlock (dec : Bool) (ks : List (List Byte)) (p : BlockPlan) (blk : List Byte) : List Byte :=
  match if dec then ks.reverse else ks with
  | [] => blk
  | k0 :: rest => (laneRun dec p (roundPlan rest p.basting) (xorBytes blk k0)).1

-- The choice of a plan

/-- Most basting rounds per block at a level. -/
def maxBasting (level : Nat) : Nat := [0, 3, 5, 7].getD level 7

/-- The plan that seven random words give a block of nr real rounds at a level from 1 up, with a basting key. -/
def planOf (level nr : Nat) (key : List Byte) (ws : List Word) : BlockPlan :=
  let w (i : Nat) : Nat := (wd ws i).toNat
  let n := w 0 % (maxBasting level + 1)
  { basting := (List.range n).map (fun i => w (1 + i / 4) / 2 ^ (12 * (i % 4)) % 2 ^ 12 % (nr + 1))
    orders := (List.range (nr + n)).map (fun i =>
      let x := w (3 + i / 6) / 2 ^ (7 * (i % 6))
      (x % 16, x / 16 % 8 * 2 + 1))
    key := key
    idle := if level == 3 then w 0 / 64 % 25 else 0 }

/-- Cycles of a block: its rounds, load and output, the new basting key of levels 2 and 3, the throttle (R54), the idle. -/
def blockCycles (level nr : Nat) (throttle : Bool) (p : BlockPlan) : Nat :=
  nr + p.basting.length + (if level ≤ 1 then 2 else 6) + (if throttle then nr else 0) + p.idle

/-- The plan of the next block, all its choices drawn from the random source; levels 2 and 3 draw a new basting key. -/
def drawPlan (level nr : Nat) (key : List Byte) (d : Dev) : BlockPlan × Dev :=
  if level == 0 then ({ key := key }, d)
  else
    let (k, d) := if level == 1 then (key, d) else drawBytes 16 d
    let (ws, d) := drawWords 7 d
    (planOf level nr k ws, d)

/-- n blocks of a quantum: the basting key afterwards and the cycles taken. -/
def runBlocks (level nr : Nat) : Nat → List Byte × Nat → Dev → (List Byte × Nat) × Dev
  | 0, x, d => (x, d)
  | n + 1, x, d =>
    let (p, d) := drawPlan level nr x.1 d
    runBlocks level nr n (p.key, x.2 + blockCycles level nr d.power.throttle p) d

/-- A quantum of n block operations on a lane: level 1 draws one basting key for it. -/
def runQuantum (lane level nr n : Nat) (d : Dev) : Dev :=
  let (k, d) := if level == 1 then drawBytes 16 d else ((d.sym.lanes.getD lane {}).bastingKey, d)
  let (x, d) := runBlocks level nr n (k, 0) d
  { d with sym := { d.sym with lanes := modAt d.sym.lanes lane (fun l => { l with bastingKey := x.1, cycles := x.2 }) } }

end Sys2Proof.Machine
end

