-- ==== Sys2Proof/Machine/Symmetric.lean ====
section
/-! DEFINITION. Symmetric ciphers and hashes (08_symmetric_and_hash): the cipher commands, lanes, quanta, nonces, streams, tests. -/
namespace Sys2Proof.Machine

-- Modes (R342)

def Mode.ctr : Nat := 1
def Mode.cbc : Nat := 2
def Mode.gcm : Nat := 3
def Mode.ccm : Nat := 4
def Mode.cmac : Nat := 5
def Mode.kw : Nat := 6

def isAead (m : Nat) : Bool := m == Mode.gcm || m == Mode.ccm

def modeUsage (m : Nat) (dec : Bool) : Nat :=
  if m == Mode.cmac then (if dec then Usage.macVerify else Usage.macGen)
  else if m == Mode.kw then (if dec then Usage.keyUnwrap else Usage.keyWrap)
  else if dec then Usage.decrypt else Usage.encrypt

/-- The fields of the cipher parameter block (R386). -/
structure CipherArgs where
  mode : Nat := 0
  level : Nat := 0
  tlen : Nat := 0
  ivlen : Nat := 0
  dlen : Nat := 0
  release : Bool := false
  dec : Bool := false
  iv : List Byte := []
  tag : List Byte := []
  aad : List Byte := []
  data : List Byte := []
  deriving DecidableEq, Repr

def allZero (bs : List Byte) : Bool := bs.all (· == 0)

/-- Limits of the cipher modes table that concern a message of a known length. -/
def modeOk (a : CipherArgs) (n : Nat) : Bool :=
  match a.mode with
  | 1 => a.ivlen == 16 && a.tlen == 0 && decide (beNat a.iv + ceilDiv n 16 ≤ 2 ^ 128)
  | 2 => a.ivlen == 16 && a.tlen == 0 && n % 16 == 0
  | 3 => (a.ivlen == 12 || a.ivlen == 0) && decide (12 ≤ a.tlen) && decide (a.tlen ≤ 16) && decide (n ≤ 2 ^ 36 - 32)
  | 4 => decide (7 ≤ a.ivlen) && decide (a.ivlen ≤ 13) && decide (4 ≤ a.tlen) && decide (a.tlen ≤ 16) && a.tlen % 2 == 0 &&
    decide (n < 2 ^ (8 * (15 - a.ivlen)))
  | 5 => a.ivlen == 0 && decide (4 ≤ a.tlen) && decide (a.tlen ≤ 16)
  | 6 => a.ivlen == 0 && a.tlen == 0 && n % 8 == 0 && decide ((if a.dec then 24 else 16) ≤ n)
  | _ => false

/-- Reads and checks the cipher parameter block (R342-R344, R356, R366, R367, R388) (DEDUCED, log 44). -/
def cipherArgs (r : Req) (op : Nat) (d : Dev) : Res CipherArgs := do
  let stream := op == 0x0410
  let aadLen := r.f 1 15 0
  let aadW := ceilDiv aadLen 6
  let dlen := r.f 2 39 0
  let inline := if stream then 0 else dlen
  let body := wordsBytes (r.words.drop 9)
  let a : CipherArgs :=
    { mode := r.f 1 47 40, level := r.f 1 39 32, tlen := r.f 1 31 24, ivlen := r.f 1 23 16, dlen := dlen
      release := bitOf (r.w 2) 46, dec := if stream then bitOf (r.w 2) 45 else op == 0x0402
      iv := (r.bytesFrom 3 18).take (r.f 1 23 16), tag := (r.bytesFrom 6 18).take (r.f 1 31 24)
      aad := body.take aadLen, data := (body.drop (6 * aadW)).take inline }
  param (onlyBits (r.w 2) [(46, 45), (39, 0)] && (stream || fld (r.w 2) 46 45 == 0))
  param (decide (54 + 6 * aadW + inline ≤ r.len) && decide (r.len ≤ 54 + 6 * aadW + 6 * ceilDiv inline 6))
  param (allZero ((body.take (6 * aadW)).drop aadLen) && allZero (body.drop (6 * aadW + inline)))
  param (allZero ((r.bytesFrom 3 18).drop a.ivlen) && decide (a.level ≤ 3) && (d.isD || a.level != 0))
  param (if a.dec && !stream then allZero ((r.bytesFrom 6 18).drop a.tlen) else allZero (r.bytesFrom 6 18))
  param (modeOk a a.dlen)
  param (aadLen == 0 || isAead a.mode)
  param (!stream || (a.mode != Mode.kw && !((a.mode == Mode.ccm || (a.mode == Mode.gcm && a.dec && !a.release)) && a.dlen == 0)))
  .ok a

/-- Effective side-channel level (R355, R380). -/
def levelOf (d : Dev) (gen level : Nat) : Nat := max level (fld (wd (d.image gen) 8) 29 28)

/-- Lane work can be done at all and at its level (R31, R383, R385). -/
def needLanes (d : Dev) (level : Nat) : Res Unit := do
  need ((List.range 9).any (fun l => laneServes d l)) St.internalFault
  need (level == 0 || d.sym.randomOk) St.internalFault

/-- What dispatch makes of a job's nonce: the IV to use, or the wait for a reservation (R345-R349). -/
inductive Draw where
  | use (iv : List Byte) (d : Dev)
  | wait (d : Dev)
  deriving DecidableEq, Repr

def setNonce (s : Slot) (f : Nonce → Nonce) (d : Dev) : Dev :=
  { d with keys := { d.keys with
    slots := modWhere (fun x => x.tenant == s.tenant && x.index == s.index) (fun x => { x with nonce := x.nonce.map f }) d.keys.slots } }

/-- An earlier command that waits for a value of the same slot: values are drawn in admission order (R347, R354). -/
def earlierDraw (d : Dev) (r : Req) (s : Slot) : Bool :=
  d.cmds.any (fun x => decide (x.id < r.id) && x.tenant == r.tenant && x.w 0 == s.handle &&
    (x.opcode == 0x0401 || (x.opcode == 0x0410 && !bitOf (x.w 2) 45)))

/-- The IV of a job under a slot: the caller's, or the slot's next nonce value. -/
def drawIv (r : Req) (s : Slot) (a : CipherArgs) (d : Dev) : Res Draw :=
  match s.nonce with
  | none => do
    param (a.mode != Mode.gcm || a.ivlen == 12)
    .ok (.use a.iv d)
  | some n =>
    if a.dec || a.mode == Mode.cmac then do
      param (a.mode != Mode.gcm || a.ivlen == 12)
      .ok (.use a.iv d)
    else do
      param (a.mode == Mode.gcm)
      need (d.succ.state != 1) St.busyRetry
      need (!n.broken) St.internalFault
      need (n.next < 2 ^ 48 - 1) St.nonceExhausted
      if n.reserving || earlierDraw d r s then .ok (.wait d)
      else if n.next < n.limit then
        .ok (.use (beBytes 6 n.fixed.toNat ++ beBytes 6 n.next) (setNonce s (fun n => { n with next := n.next + 1 }) d))
      else do
        need (d.time.bucket != 0) St.busyRetry
        .ok (.wait (setNonce s (fun n => { n with reserving := true, attempted := n.limit + 4096 })
          { d with
            time := { d.time with bucket := d.time.bucket - 1 }
            nvm := { d.nvm with reservations := d.nvm.reservations ++ [{ id := r.id, tenant := s.tenant, index := s.index }] } }))

-- Results

/-- Output bytes of data at an offset of a message, without tag. -/
def cipherData (mode : Nat) (dec : Bool) (key iv bs : List Byte) : List Byte :=
  match mode with
  | 1 => aesCtr key 128 (beNat iv) bs
  | 2 => if dec then cbcDecGo (aesKeys key) (blocks16 bs) iv else cbcEncGo (aesKeys key) (blocks16 bs) iv
  | 3 => gcmCrypt key iv bs
  | 4 => ccmCrypt key iv bs
  | 6 => if dec then (kwUnwrap key bs).getD [] else kwWrap key bs
  | _ => []

/-- The tag of a whole message, from its plaintext and its ciphertext. -/
def cipherTag (mode : Nat) (key iv aad pt ct : List Byte) (tlen : Nat) : List Byte :=
  match mode with
  | 3 => (gcmTag key iv aad ct).take tlen
  | 4 => ccmTag key iv aad pt tlen
  | 5 => (cmac key pt).take tlen
  | _ => []

/-- The tag of a message given its input, in either direction. -/
def messageTag (mode : Nat) (dec : Bool) (key iv aad input : List Byte) (tlen : Nat) : List Byte :=
  let out := cipherData mode dec key iv input
  if mode == Mode.cmac then cipherTag mode key iv aad input input tlen
  else if dec then cipherTag mode key iv aad out input tlen else cipherTag mode key iv aad input out tlen

/-- The message verifies: its whole tag agrees (R360), and an unwrap's integrity value holds. -/
def verified (mode : Nat) (key iv aad input tag : List Byte) : Bool :=
  if mode == Mode.kw then (kwUnwrap key input).isSome else messageTag mode true key iv aad input tag.length == tag

/-- Status, payload words and payload bytes of a short-form job (R361, R386). -/
def shortResult (j : CipherJob) : Byte × List Word × Nat :=
  if j.dec && !verified j.mode j.key j.iv j.aad j.data j.tag then (St.authFail, [], 0)
  else
    let out := if j.mode == Mode.cmac then [] else cipherData j.mode j.dec j.key j.iv j.data
    let tag := if j.dec then [] else messageTag j.mode false j.key j.iv j.aad j.data j.tlen
    let ws := word out.length :: fitW 3 (bytesWords j.iv) ++ fitW 3 (bytesWords tag) ++ bytesWords out
    (St.ok, ws, 6 * ws.length)

/-- Completes a stream chunk (R364-R367): the reply and what becomes of the stream. -/
def finishChunk (j : CipherJob) (h : BitVec 24) (d : Dev) : Dev :=
  match longAt d h with
  | none => complete j.req St.cancelled [] 0 d
  | some l =>
    match l.data with
    | .stream x =>
      let input := x.data ++ j.data
      let short := x.total != 0 && input.length != x.total
      if j.last && (short || (x.mode == Mode.cbc && input.length % 16 != 0)) then
        finishLong h .failed St.paramRange (complete j.req St.paramRange [] 0 d)
      else
        let out := (cipherData x.mode x.dec x.key x.iv input).drop x.data.length
        let held := (x.mode == Mode.cmac) || (x.dec && isAead x.mode && !x.release)
        let shown := if held then [] else out
        let d := modLong h (fun l => { l with units := l.units + 1, data := .stream { x with data := input } }) d
        if j.last then
          if x.dec && !verified x.mode x.key x.iv x.aad input j.tag then
            finishLong h .failed St.authFail (complete j.req St.authFail [] 0 d)
          else
            let tag := if x.dec then [] else messageTag x.mode false x.key x.iv x.aad input x.tlen
            let ws := word shown.length :: fitW 3 (bytesWords tag) ++ bytesWords shown
            finishLong h .done St.ok (complete { j.req with gen := l.gen } St.ok ws (6 * ws.length) d)
        else
          let unv := x.dec && isAead x.mode && x.release
          let ws := mkWord [(47, 47, flag unv), (39, 0, shown.length)] :: [0, 0, 0] ++ bytesWords shown
          suspensionPoint h (complete j.req St.ok ws (6 * ws.length) d)
    | _ => complete j.req St.cancelled [] 0 d

-- Quanta (R252, R341)

/-- Blocks of one quantum. -/
def quantumBlocks (level mode : Nat) : Nat :=
  let q := if level ≤ 1 then 1024 else if level == 2 then 768 else 512
  if mode == Mode.ccm then q / 2 else q

def jobBlocks (j : CipherJob) : Nat := ceilDiv j.data.length 16

/-- Block operations of a job's quantum: CCM needs two for each data block. -/
def quantumOps (j : CipherJob) : Nat :=
  let n := min (quantumBlocks j.level j.mode) (jobBlocks j - j.blocks)
  if j.mode == Mode.ccm then 2 * n else n

/-- Real rounds of a key (FIPS 197). -/
def roundsOf (key : List Byte) : Nat := key.length / 4 + 6

/-- Another lane may take a retry: one in another cluster when one is in service, else LS (R371). -/
def laneFits (d : Dev) (l : Nat) (j : CipherJob) : Bool :=
  match j.avoid with
  | none => laneServes d l
  | some c =>
    if (List.range 8).any (fun k => !laneOut d k && k / 2 != c) then l < 8 && !laneOut d l && l / 2 != c
    else l == 8 && !laneOut d 8

/-- Some lane can still take the job. -/
def someLaneFits (d : Dev) (j : CipherJob) : Bool := (List.range 9).any (fun l => laneFits d l j)

def laneFree (d : Dev) (l : Nat) : Bool := (d.sym.lanes.getD l {}).job.isNone && !(d.sym.lanes.getD l {}).owesKat && !laneHalted d l

/-- A job goes onto a lane for its next quantum; trace point 17. -/
def startOn (l : Nat) (j : CipherJob) (d : Dev) : Dev :=
  traceT Core.sch 17 j.req.tenant (word l) (word j.req.tenant.toNat) (noteBusy (modLane l (fun x => { x with job := some j })
    { d with sym := { d.sym with waiting := d.sym.waiting.erase j }, power := { d.power with workAt := d.now } }))

/-- The free lane a job may take now, the lowest of several (DESIGN CHOICE, log 61). -/
def laneFor (d : Dev) (j : CipherJob) : Option Nat := (List.range 9).find? (fun l => laneFree d l && laneFits d l j)

/-- A job that has its key and nonce takes a lane, or waits for one between quanta. -/
def placeJob (j : CipherJob) (d : Dev) : Dev :=
  match if dispatchStopped d then none else laneFor d j with
  | some l => startOn l j d
  | none => { d with sym := { d.sym with waiting := d.sym.waiting ++ [j] } }

-- The cipher commands

/-- The command's own checks at dispatch, its pinned key and its IV (R197 step 6, R321). -/
def dispatchCipher (r : Req) (op : Nat) (d : Dev) : Res (Dev × Done) := do
  let a ← cipherArgs r op d
  let level := levelOf d r.gen a.level
  needLanes d level
  let (s, d) ← useSlot r (r.w 0) (some (modeUsage a.mode a.dec)) d
  match ← drawIv r s a d with
  | .wait d => .ok (d, .wait)
  | .use iv d =>
    okLater (placeJob { req := r, slot := s.ref, key := s.material, mode := a.mode, dec := a.dec, iv := iv, aad := a.aad
                        data := a.data, tag := a.tag, tlen := a.tlen, level := level } d)

/-- A lane is free and the tenant's lane time is not used up (R244); else the command waits, ready. -/
def canDispatch (d : Dev) (r : Req) : Bool :=
  (freeLane d).isSome && !laneTimeUp d r.gen r.tenant && !dispatchStopped d || !(List.range 9).any (fun l => laneServes d l) || decide (r.deadline < d.now)

def markReady (id : Nat) (d : Dev) : Dev :=
  if d.laneReady.contains id then d else { d with laneReady := d.laneReady ++ [id] }

/-- Dispatches a lane command that the device holds. -/
def serveCipher (r : Req) (op : Nat) (d : Dev) : Dev := serve r (fun _ => needTenant r) (dispatchCipher r op) d

/-- A lane command's row: it goes to a free lane, or waits ready for SCH's choice at a quantum's end (R251). -/
def laneCmd (op : Nat) (r : Req) (go : Dev → Dev) (s : State) : Out :=
  lift (fun d =>
    if r ∈ d.cmds ∧ r.opcode.toNat = op then if canDispatch d r then go d else markReady r.id d
    else d) s

/-- CIPHER_ENCRYPT (R342): the job starts on a lane; its reply follows at its last quantum's end. -/
def execCipherEncrypt (r : Req) (s : State) : Out := laneCmd 0x0401 r (serveCipher r 0x0401) s

/-- CIPHER_DECRYPT (R342, R361). -/
def execCipherDecrypt (r : Req) (s : State) : Out := laneCmd 0x0402 r (serveCipher r 0x0402) s

/-- STREAM_OPEN's own checks and effect (R363, R366-R368, R387). -/
def openStream (r : Req) (d : Dev) : Res (Dev × Done) := do
  let a ← cipherArgs r 0x0410 d
  need (!a.release || hasRight d r 4) St.policyRefused 9
  let level := levelOf d r.gen a.level
  needLanes d level
  let (s, d) ← useSlot r (r.w 0) (some (modeUsage a.mode a.dec)) d
  need (!a.release || s.streamRel) St.policyRefused 1
  match ← drawIv r s a d with
  | .wait d => .ok (d, .wait)
  | .use iv d =>
    startLong r 4 0 (.stream { slot := s.ref, key := s.material, mode := a.mode, dec := a.dec, level := level, tlen := a.tlen
                               iv := iv, aad := a.aad, total := a.dlen, release := a.release }) (fitW 3 (bytesWords iv)) d

/-- STREAM_OPEN. -/
def execStreamOpen (r : Req) (s : State) : Out := hostCmd 0x0410 r (fun _ => needTenant r) (openStream r) s

/-- Another chunk of the stream is in work. -/
def chunkInWork (d : Dev) (h : BitVec 24) : Bool :=
  d.sym.lanes.any (fun l => (l.job.map (fun j => j.stream == some h)).getD false) || d.sym.waiting.any (fun j => j.stream == some h)

/-- STREAM_CHUNK's own checks: length, padding, tag, whole blocks (R366, R388), then its job. -/
def dispatchChunk (r : Req) (d : Dev) : Res (Dev × Done) := do
  let last := bitOf (r.w 0) 24
  let n := r.f 1 39 0
  let body := wordsBytes (r.words.drop 5)
  param (onlyBits (r.w 0) [(24, 24), (23, 0)] && onlyBits (r.w 1) [(39, 0)])
  param (decide (30 + n ≤ r.len) && decide (r.len ≤ 30 + 6 * ceilDiv n 6) && allZero (body.drop n))
  let l ← needLong r (r.f 0 23 0) 4 d
  param (longRunning l)
  match l.data with
  | .stream x => do
    param ((last || n % 16 == 0) &&
      (if last && x.dec then allZero ((r.bytesFrom 2 18).drop x.tlen) else allZero (r.bytesFrom 2 18)))
    param (x.mode != Mode.ctr || x.total != 0 || decide (beNat x.iv + ceilDiv (x.data.length + n) 16 ≤ 2 ^ 128))
    param (x.mode != Mode.gcm || decide (x.data.length + n ≤ 2 ^ 36 - 32))
    needLanes d x.level
    okLater (placeJob { req := r, slot := x.slot, key := x.key, mode := x.mode, dec := x.dec, iv := x.iv, data := body.take n
                        tag := (r.bytesFrom 2 18).take x.tlen, tlen := x.tlen, level := x.level, stream := some l.handle
                        last := last } d)
  | _ => rej St.paramRange

def serveChunk (r : Req) (d : Dev) : Dev := serve r (fun _ => needTenant r) (dispatchChunk r) d

/-- STREAM_CHUNK: one chunk of a stream at a time. -/
def execStreamChunk (r : Req) (s : State) : Out :=
  laneCmd 0x0411 r (fun d => if chunkInWork d (BitVec.ofNat 24 (r.f 0 23 0)) then markReady r.id d else serveChunk r d) s

-- SCH's choice for a free lane

/-- A ready command of a lane kind can be dispatched now. -/
def readyNow (d : Dev) (r : Req) : Bool :=
  d.laneReady.contains r.id && !laneTimeUp d r.gen r.tenant &&
    (match r.opcode.toNat with
     | 0x0411 => !chunkInWork d (BitVec.ofNat 24 (r.f 0 23 0))
     | _ => !d.keys.slots.any (fun s => s.tenant == r.tenant && s.handle == r.w 0 &&
         ((s.nonce.map (fun n => n.reserving)).getD false) && r.opcode == 0x0401))

def serveLaneCmd (r : Req) (d : Dev) : Dev :=
  let d := { d with laneReady := d.laneReady.filter (· != r.id) }
  if r.opcode == 0x0411 then serveChunk r d else serveCipher r r.opcode.toNat d

/-- Gives a lane work by R251: jobs between quanta and ready commands; a command refused at dispatch leaves the lane to the next. -/
def fillLane : Nat → Nat → Dev → Dev
  | 0, _, d => d
  | n + 1, l, d =>
    if !(laneFree d l && (laneServes d l || d.sym.waiting.any (fun j => laneFits d l j))) then d
    else
      let jobs := d.sym.waiting.filter (fun j => laneFits d l j && !laneTimeUp d j.req.gen j.req.tenant)
      let cmds := if laneServes d l then d.cmds.filter (fun r => readyNow d r) else []
      match pickReq (jobs.map (·.req) ++ cmds) d.sched with
      | (none, _) => d
      | (some r, sc) =>
        let d := { d with sched := sc }
        match jobs.find? (fun j => j.req == r) with
        | some j => startOn l j d
        | none => fillLane n l (serveLaneCmd r d)

/-- A job that its one retry has not saved: INTERNAL_FAULT, and its stream ends FAILED (R282, R372). -/
def failCipher (j : CipherJob) (d : Dev) : Dev :=
  let d := refuseWith j.req St.internalFault 0 d
  match j.stream with
  | some h => finishLong h .failed St.internalFault d
  | none => d

/-- Jobs that no lane can take any more end with INTERNAL_FAULT (R371, R372, R385). -/
def failStranded (d : Dev) : Dev :=
  let bad := d.sym.waiting.filter (fun j => !someLaneFits d j)
  bad.foldl (fun d j => failCipher j d) { d with sym := { d.sym with waiting := d.sym.waiting.filter (fun j => someLaneFits d j) } }

/-- Every free lane takes what SCH chooses for it. -/
def fillLanes (d : Dev) : Dev := if dispatchStopped d then d else (List.range 9).foldl (fun d l => fillLane 512 l d) (failStranded d)

/-- Waiting work that needs randomness ends with INTERNAL_FAULT once the source has failed (R383). -/
def failRandom (d : Dev) : Dev :=
  if d.sym.randomOk then d
  else
    let bad := d.sym.waiting.filter (fun j => j.level != 0)
    let d := bad.foldl (fun d j => refuseWith j.req St.internalFault 0 d)
      { d with sym := { d.sym with waiting := d.sym.waiting.filter (fun j => j.level == 0) } }
    (d.cmds.filter (fun r => d.laneReady.contains r.id)).foldl (fun d r => serveLaneCmd r d) d

-- Lane integrity (R370-R377)

def fenceLaneFor (l cause : Nat) (d : Dev) : Dev :=
  let (d, whole) := fenceLane l d
  let d := fenceRecord l cause (reportFence l cause d)
  if whole then fenceRecord (0x10 + clusterOf l) 3 (reportFence (0x10 + clusterOf l) 3 d) else d

/-- A datapath mismatch of a lane: the event, the count of three in 4,096 ticks, the owed test (R371, R373, R375). -/
def laneMismatch (l blk : Nat) (t : Byte) (d : Dev) : Dev :=
  let d := traceT Core.sch 209 t (word l) (word blk) (tamperEvent Src.datapath l d)
  let d := modLane l (fun x => { x with
    owesKat := true, mismatches := (x.mismatches.filter (fun t => decide (d.now ≤ t + 4096))) ++ [d.now] }) d
  if 3 ≤ ((d.sym.lanes.getD l {}).mismatches).length then fenceLaneFor l 2 d else d

/-- What the end of a job's quantum makes of the job (R260, R371, R372): past its deadline it ends, whether the comparison agreed or
not. A quantum that FLASH hit is retried whatever it was (R480; DESIGN CHOICE, log 84); past a deadline the stream stays as it was
(DEDUCED, log 89). -/
def quantumDone (lane : Nat) (mismatch : Option Nat) (j : CipherJob) (d : Dev) : Dev :=
  let d := match mismatch with
    | some blk => laneMismatch lane blk j.req.tenant d
    | none => d
  if j.withheld then
    if j.req.deadline < d.now then refuseWith j.req St.deadline 0 d
    else placeJob { j with retried := true, withheld := false, avoid := some (clusterOf lane) } d
  else match mismatch with
  | some _ =>
    if j.req.deadline < d.now then refuseWith j.req St.deadline 0 d
    else if j.retried then failCipher j d
    else placeJob { j with retried := true, avoid := some (clusterOf lane) } d
  | none =>
    let j := { j with blocks := j.blocks + quantumBlocks j.level j.mode, retried := false, avoid := none }
    if j.req.deadline < d.now then refuseWith j.req St.deadline 0 d
    else if jobBlocks j ≤ j.blocks then
      match j.stream with
      | some h => finishChunk j h d
      | none => let x := shortResult j; complete j.req x.1 x.2.1 x.2.2 d
    else { d with sym := { d.sym with waiting := d.sym.waiting ++ [j] } }

/-- LANE_QUANTUM_END (R252, R260, R357, R370-R372): the charge, the comparison, the job's end or next quantum, and SCH's next choice
(DESIGN CHOICE, log 36). A tamper response goes first (R491). -/
def execLaneQuantumEnd (lane : Fin 9) (us : Nat) (mismatch : Option Nat) (s : State) : Out :=
  lift (fun d =>
    match (d.sym.lanes.getD lane.val {}).job with
    | none => d
    | some j =>
      if responseDue d then d
      else
        let d := modStat j.req.tenant (fun x => { x with laneUs := x.laneUs + us }) d
        let d := runQuantum lane.val j.level (roundsOf j.key) (quantumOps j) d
        let d := traceT Core.sch 208 j.req.tenant (word lane.val) (handleOf j.slot.tenant j.slot.index j.slot.gen)
          (modLane lane.val (fun x => { x with job := none }) { d with power := { d.power with workAt := d.now } })
        fillLanes (failRandom (quantumDone lane.val mismatch j d))) s

/-- NONCE_RESERVATION_COMMIT (R47, R348, R384): the limit is raised, or the slot refuses encryption; the command that waited for it, if it
still does, draws. -/
def execNonceReservationCommit (id : Nat) (ok : Bool) (s : State) : Out :=
  lift (fun d =>
    match d.nvm.reservations.find? (fun x => x.id == id) with
    | none => d
    | some x =>
      let d := settleReservation (reservationEnd (if ok then .verified else .failed)) x
        { d with nvm := { d.nvm with reservations := d.nvm.reservations.erase x } }
      let d : Dev := match slotAt d x.tenant x.index with
        | some y => if ok then logAt Core.sec 84 y.handle (word ((y.nonce.map (fun n => n.limit)).getD 0)) false d else d
        | none => d
      match d.cmds.find? (fun r => r.id == id) with
      | none => d
      | some r =>
        if r.opcode == 0x0410 then serve r (fun _ => needTenant r) (openStream r) d
        else if canDispatch d r || !ok then serveLaneCmd r d
        else markReady r.id d) s

/-- LANE_KAT (R373-R376). -/
def execLaneKat (lane : Fin 9) (passed : Bool) (s : State) : Out :=
  lift (fun d =>
    if laneOut d lane.val then d
    else
      let d := logAt Core.sch 210 (word lane.val) (word (flag passed)) false d
      if passed then fillLanes (modLane lane.val (fun x => { x with owesKat := false }) d)
      else fillLanes (fenceLaneFor lane.val 1 d)) s

/-- HASH_KAT (R378). -/
def execHashKat (u : Fin 4) (passed : Bool) (s : State) : Out :=
  lift (fun d =>
    if clusterOut d u.val || (d.sym.clusters.getD u.val {}).hashFenced then d
    else
      let d := logAt Core.sch 210 (word (0x30 + u.val)) (word (flag passed)) false d
      if passed then d
      else fenceRecord (0x30 + u.val) 1 (reportFence (0x30 + u.val) 1 (modCluster u.val (fun c => { c with hashFenced := true }) d))) s

/-- RANDOM_HEALTH_FAIL (R383, R420); the test that failed is not in the spec's list of commands (log 13). -/
def execRandomHealthFail (s : State) : Out :=
  lift (fun d => fillEngines 600 (failRandom (logAt Core.sec 9 (word (Config.unstated 9 [])) 0 false
    { d with sym := { d.sym with randomOk := false } }))) s

-- Hashes (R378, R379, R386)

def digestLen (alg : Nat) : Nat :=
  match alg with
  | 1 => 32
  | 2 => 48
  | 3 => 64
  | 4 => 32
  | _ => 0

def digest (alg : Nat) (bs : List Byte) : List Byte :=
  match alg with
  | 1 => sha256 bs
  | 2 => sha384 bs
  | 3 => sha512 bs
  | _ => sha3_256 bs

/-- HASH (R379) (DESIGN CHOICE, log 37). -/
def execHash (r : Req) (s : State) : Out :=
  hostCmd 0x0501 r (fun _ => needTenant r) (fun d => do
    let alg := r.f 0 47 40
    let n := r.f 0 39 0
    let body := wordsBytes (r.words.drop 1)
    param (digestLen alg != 0 && decide (6 + n ≤ r.len) && decide (r.len ≤ 6 + 6 * ceilDiv n 6) && allZero (body.drop n))
    need (hashServes d) St.internalFault
    okWords d (word (digestLen alg) :: bytesWords (digest alg (body.take n)))) s

/-- HASH_STREAM_OPEN (DEDUCED, log 39). -/
def execHashStreamOpen (r : Req) (s : State) : Out :=
  hostCmd 0x0510 r (fun _ => needTenant r) (fun d => do
    param (r.sized 1 && onlyBits (r.w 0) [(47, 40)] && digestLen (r.f 0 47 40) != 0)
    need (hashServes d) St.internalFault
    startLong r 4 0 (.hashStream (r.f 0 47 40) []) [] d) s

/-- HASH_STREAM_CHUNK. -/
def execHashStreamChunk (r : Req) (s : State) : Out :=
  hostCmd 0x0511 r (fun _ => needTenant r) (fun d => do
    let n := r.f 1 39 0
    let body := wordsBytes (r.words.drop 2)
    param (onlyBits (r.w 0) [(24, 24), (23, 0)] && onlyBits (r.w 1) [(39, 0)])
    param (decide (12 + n ≤ r.len) && decide (r.len ≤ 12 + 6 * ceilDiv n 6) && allZero (body.drop n))
    let l ← needLong r (r.f 0 23 0) 4 d
    param (longRunning l)
    need (hashServes d) St.internalFault
    match l.data with
    | .hashStream alg old =>
      let all := old ++ body.take n
      let d := modLong l.handle (fun l => { l with units := l.units + 1, data := .hashStream alg all }) d
      if bitOf (r.w 0) 24 then
        let ws := word (digestLen alg) :: bytesWords (digest alg all)
        .ok (finishLong l.handle .done St.ok d, .final l.gen ws (6 * ws.length))
      else okWords (suspensionPoint l.handle d) [0]
    | _ => rej St.paramRange) s

/-- ENGINE_WINDOW: at a tick multiple of 4,096 the accounts of the window begin again (R243, R250), and work that had used up its time
is dispatched (R244). -/
def execEngineWindow (s : State) : Out :=
  lift (fun d =>
    if d.sched.window < d.now / 4096 then
      fillLanes (fillEngines 600 { d with sched := { d.sched with
        window := d.now / 4096, stats := d.sched.stats.map (fun x => { x with laneUs := 0, pkUs := 0, urgent := 0 }) } })
    else d) s

end Sys2Proof.Machine
end

