-- ==== Sys2Proof/Machine/Power.lean ====
section
/-! DEFINITION. Supplies, resets, power states, thermal limits and watchdogs (02_package_power_electrical, R140, R141, R577, R623). -/
namespace Sys2Proof.Machine

-- Supplies

/-- POWER_UP (R39, R40, R76, R140): start-up from phase 2 up to ROM entry. -/
def execPowerUp (kept : Bool) (s : State) : Out :=
  liftR (fun d =>
    if d.power.state = .off || d.power.state = .backup then
      let lost := d.power.state = .off || !kept
      let d := if lost then loseAon d else d
      (restart 2 Cause.por d, true)
    else (d, false)) s

/-- BACKUP_ENTRY (R39, R47, R51, R718): a warned write has completed; an unwarned one waits for the next start's repair. -/
def execBackupEntry (warned inPhase2 : Bool) (s : State) : Out :=
  liftR (fun d =>
    if d.power.state = .off || d.power.state = .backup then (d, false)
    else
      let d := if warned || d.power.pfn then finishWrites d
        else { d with nvm := { d.nvm with phase2 := inPhase2 && !(d.nvm.writes.isEmpty && d.nvm.reservations.isEmpty) } }
      (enterBackup d, true)) s

def setRail (g : Rail) (v : Option Bool) (p : PowerState) : PowerState :=
  match g with
  | .a => { p with railA := v }
  | .b => { p with railB := v }
  | .m => { p with railM := v }

def railOf (g : Rail) (p : PowerState) : Option Bool :=
  match g with
  | .a => p.railA
  | .b => p.railB
  | .m => p.railM

/-- VDDIO_RISE: the class is detected once per rise (R34, R35); a level of exactly 2.5 V has no stated class (log 13). -/
def execVddioRise (g : Rail) (mv : Nat) (s : State) : Out :=
  lift (fun d =>
    if (railOf g d.power).isSome || decide (mv < 1000) then d
    else
      let high := decide (2500 < mv) || (mv == 2500 && Config.unstated 34 [mv] % 2 == 1)
      { d with power := setRail g (some high) d.power }) s

/-- VDDIO_LOSS (R36, R58, R232): the group is gone, a partial frame with it. -/
def execVddioLoss (g : Rail) (s : State) : Out :=
  lift (fun d =>
    let d := { d with power := setRail g none d.power }
    match g with
    | .a => discardPartial .a d
    | .b => discardPartial .b d
    | .m => d) s

/-- CRYSTAL_START_TIMEOUT: start-up goes on with the RC oscillator (R59, R70). -/
def execCrystalStartTimeout (s : State) : Out :=
  lift (fun d =>
    if d.power.state = .active && !d.boot.running then judgeClock { d with time := { d.time with stopped := true } } else d) s

-- PF_N (R45-R50)

/-- Commands in the device when PF_N is recognised, but for those that wait for an NVM write (R50). -/
def inProgress (d : Dev) : List Req :=
  d.cmds ++ d.sym.lanes.filterMap (fun l => l.job.map (·.req)) ++ d.sym.waiting.map (·.req)
    ++ (d.pk.engines.filterMap (·.job) ++ d.pk.waiting).filterMap (fun j => match j.work with
        | .rsa _ => none
        | _ => if j.abandoned then none else some j.req)
    ++ (d.fw.handover.map (·.req)).toList

/-- Lane jobs are abandoned; a running program reaches its end without its command; a program between two engines is dropped (R46). -/
def abandonJobs (d : Dev) : Dev :=
  { d with
    cmds := [], laneReady := [], pkReady := []
    sym := { d.sym with lanes := d.sym.lanes.map (fun l => { l with job := none }), waiting := [] }
    pk := { engines := d.pk.engines.map (fun e => { e with job := e.job.map (fun j => { j with abandoned := true }) }), waiting := [] } }

/-- Replies that waited for their fixed time become BUSY_RETRY (R716); a session whose reply was held is not opened. -/
def abandonHeld (d : Dev) : Dev :=
  d.held.foldl (fun d h =>
    let d := match h.kind, h.reply.req.origin with
      | .sessionOpen, .port p =>
        freeRing h.reply.req (d.modPort p (fun x => { x with sessions := x.sessions.filter (fun s => s.opened != h.reply.req.id) }))
      | _, _ => d
    { d with power := { d.power with
      pfnReplies := d.power.pfnReplies ++ [{ h.reply with status := St.busyRetry, words := [], bytes := 0 }] } }) { d with held := [] }

/-- What the device gives up when PF_N is recognised (R46, R50, R161, R716): the commands in progress, the jobs, the held replies, a
handover, a succession, a bundle that is being fetched or pushed. -/
def powerFail (d : Dev) : Dev :=
  let pushing := d.boot.progress == 0x05 || (d.boot.progress == 0x0C && (d.boot.pushStarted || !d.cmds.isEmpty))
  let d := { d with power := { d.power with pfn := true, pfnCmds := inProgress d } }
  let d := finishWhere (fun _ => true) .failed St.busyRetry (abandonHeld (abandonJobs d))
  let d := abortOutgoing (abortHandover 2 d)
  if pushing then { d with boot := { d.boot with push := [], pushStarted := false, pushHeader := false, refetch := true } } else d

/-- PF_N_WARNING: recognised from 2 us on, R45's open outcome between 1 us and 2 us, in every state but BACKUP (DEDUCED, log 27). -/
def execPfNWarning (ns : Nat) (taken : Bool) (s : State) : Out :=
  lift (fun d =>
    if !(decide (2000 ≤ ns) || (decide (1000 ≤ ns) && taken)) || d.power.state = .off || d.power.state = .backup || d.power.pfn then d
    else powerFail d) s

-- Resets and watchdogs

/-- A complete reset by the pin: the write in progress completes first (R44), and the port registers go too (R43, R180; log 30). -/
def pinReset (d : Dev) : Dev := { restart 4 Cause.pin (finishWrites d) with portA := {}, portB := {} }

/-- RESET_PIN (R43, R44, R140); in HIBERNATE the pin is a wake source (R52). -/
def execResetPin (ns : Nat) (taken : Bool) (s : State) : Out :=
  liftR (fun d =>
    if !(decide (1000 ≤ ns) || (decide (200 ≤ ns) && taken)) then (d, false)
    else
      match d.power.state with
      | .active => (pinReset d, true)
      | .idle => (pinReset d, true)
      | .standby => (pinReset d, true)
      | .hibernate =>
        let d := restart 3 Cause.hibWake (latchCause Cause.pin d)
        ({ d with power := { d.power with standbyAfter := true } }, true)
      | .shutdown => (latchCause Cause.pin d, false)
      | .off => (d, false)
      | .backup => (d, false)) s

/-- Code of a core in the log ring and in a debug request. -/
def coreLogCode : CoreId → Byte
  | .sec => 0x01
  | .pmc => 0x02
  | .sch => 0x03
  | .cc n => BitVec.ofNat 8 (0x10 + n.val)

def coreDebugCode : CoreId → Nat
  | .sec => 1
  | .pmc => 2
  | .sch => 3
  | .cc n => 8 + n.val

def coreHalted (c : CoreId) (d : Dev) : Bool := d.dbg.halted.contains (coreDebugCode c)

/-- A lane of a lost cluster gives up its quantum: it is retried once elsewhere, a retry that is lost too ends its job (R282, R623). -/
def loseLane (n l : Nat) (d : Dev) : Dev :=
  match (d.sym.lanes.getD l {}).job with
  | none => d
  | some j =>
    let d := modLane l (fun x => { x with job := none }) d
    if j.retried then failCipher j d
    else { d with sym := { d.sym with waiting := d.sym.waiting ++ [{ j with retried := true, avoid := some n }] } }

/-- The cluster's control core is lost for a time (R623): its quanta are retried once elsewhere, its activations end CLUSTER, and a
second expiry within 2^22 ticks fences the cluster with CAUSE 6 (R625). -/
def clusterLost (n : Nat) (d : Dev) : Dev :=
  if clusterOut d n then d
  else
    let d := loseLane n (2 * n + 1) (loseLane n (2 * n) d)
    let again := (((d.sym.clusters.getD n {}).lastExpiry).map (fun t => decide (d.now ≤ t + 2 ^ 22))).getD false
    let d := modCluster n (fun c => { c with lastExpiry := some d.now }) d
    if again then fillLanes (fenceRecord (0x10 + n) 6 (reportFence (0x10 + n) 6 (fenceCluster n d)))
    else fillLanes (clusterApplets n false d)

/-- A handover ends without adoption: the old image goes on, the area is free (R594). -/
def failHandover (reason : Nat) (h : HandoverState) (d : Dev) : Dev :=
  let d := logAt Core.sec 4 (word reason) (word h.newBuild) false { d with fw := { d.fw with handover := none, loaded := none } }
  complete h.req St.handoverFailed [mkWord [(7, 0, reason)]] 6 (fwEvent h.ctype 4 (reason * 2 ^ 40 + h.newBuild) d)

/-- The core that runs a component type; PK's sequencers are no cores. -/
def runsOn (c : CoreId) : Nat :=
  match c with
  | .sec => 1
  | .pmc => 2
  | .sch => 3
  | .cc _ => 4

/-- The new image of a core is adopting its record: the handover monitor stands in for its watchdog (R593). -/
def adopting (c : CoreId) (d : Dev) : Option HandoverState :=
  d.fw.handover.bind (fun h => if h.phase == 4 && h.ctype == runsOn c then some h else none)

/-- A watchdog whose core was last served at `served` has run out: 410 ticks have passed since then (R141). -/
def watchdogOut (since served : Nat) (d : Dev) : Bool :=
  (d.power.state = .active || d.power.state = .idle || d.power.state = .standby) && d.boot.progress != 0 &&
    decide (since ≤ served) && decide (served + 410 ≤ d.now)

/-- A cluster's watchdog counts from its last restart. -/
def clusterSince (n : Nat) (d : Dev) : Nat := max d.boot.enteredAt (((d.sym.clusters.getD n {}).lastExpiry).getD 0)

/-- A cluster's expired watchdog restarts the cluster alone; a halted core's is paused (R694). -/
def clusterExpiry (w : ClusterLapse) (d : Dev) : Dev :=
  let n := w.cluster
  if !d.boot.running || coreHalted (.cc n) d || (adopting (.cc n) d).isSome || !watchdogOut (clusterSince n.val d) w.served d then d
  else clusterLost n.val (logAt (coreLogCode (.cc n)) 1 (word (coreLogCode (.cc n)).toNat) 0 false d)

/-- WATCHDOG_EXPIRY of SEC, PMC or SCH (R140, R141), in the boot ROM too (R160); a halted core's watchdog is paused (R694), an
adopting one's replaced (R593). -/
def execWatchdogExpiry (w : CoreLapse) (s : State) : Out :=
  liftR (fun d =>
    match w.core with
    | .cc n => (clusterExpiry { cluster := n, served := w.served } d, false)
    | c =>
      if coreHalted c d || (adopting c d).isSome || !watchdogOut d.boot.enteredAt w.served d then (d, false)
      else (restart 4 Cause.watchdog d, true)) s

/-- CLUSTER_WATCHDOG_EXPIRY. -/
def execClusterWatchdogExpiry (w : ClusterLapse) (s : State) : Out := lift (clusterExpiry w) s

/-- PROTECTION_FAULT (R576, R577, R680): trace point 0; a core's fault restarts the device with FW_EVENT 7, a cluster core's is an
expired watchdog, an applet's ends its activation; a new image's fails its adoption (reason 0x04). -/
def execProtectionFault (who : Subject) (addr : Word) (s : State) : Out :=
  liftR (fun d =>
    if !d.boot.running then (d, false)
    else
      match who with
      | .applet a =>
        (endActivation a End.cluster 0 0 [] (logAt (BitVec.ofNat 8 (0x10 + ((appletAt d a).map (·.cluster)).getD 0)) 0
          (word (Config.unstated 40 [a.tenant.toNat, a.id.toNat])) addr false d), false)
      | .core c =>
        let d := logAt (coreLogCode c) 0 (word (coreLogCode c).toNat) addr false d
        match adopting c d, c with
        | some h, _ => (failHandover 4 h d, false)
        | none, .cc n => (clusterLost n.val d, false)
        | none, _ =>
          let d := raiseFault 15 d
          (restart 5 Cause.fault (owe (coreDebugCode c) 7 (Config.faultCode 15).toNat d), true)) s

-- Power states (R52, R620)

def Power.code : Power → Nat
  | .active => 0
  | .idle => 1
  | .standby => 2
  | .hibernate => 3
  | _ => 4

/-- A new power state, with trace point 160. -/
def toPower (p : Power) (d : Dev) : Dev :=
  logAt Core.pmc 160 (word (Power.code d.power.state)) (word (Power.code p)) false { d with power := { d.power with state := p } }

/-- Cluster or public-key work: a busy lane or engine, or a running activation. -/
def engineWork (d : Dev) : Bool :=
  busyLanes d != 0 || busyEngines d != 0 || d.app.applets.any (fun x => x.act.any (fun t => t.started && t.call.isNone))

/-- IDLE_ENTRY: 1 ms without cluster or public-key work. -/
def execIdleEntry (s : State) : Out :=
  lift (fun d =>
    if d.boot.running && d.power.state = .active && !engineWork d && decide (d.power.workAt + msTicks 1 ≤ d.now) then toPower .idle d
    else d) s

/-- Entry into STANDBY copies the speed trace (R453). -/
def enterStandby (d : Dev) : Dev := toPower .standby (mirrorTrace d)

/-- Entry into HIBERNATE: writes in progress complete, the attachment ends (R687), volatile state is lost (R140). -/
def enterHibernate (d : Dev) : Dev := powerDown .hibernate (finishWrites (mirrorTrace d))

/-- IDLE_STANDBY_EXPIRY (R620, R696). -/
def execIdleStandbyExpiry (s : State) : Out :=
  lift (fun d =>
    let sec := d.cfg 8 15 4
    if d.boot.running && (d.power.state = .active || d.power.state = .idle) && sec != 0 && decide (d.power.frameAt + sec * 4096 ≤ d.now) &&
        !(d.sched.longs.any (fun l => l.state = .running)) && d.dbg.halted.isEmpty then enterStandby d
    else d) s

/-- A wake source of R52 is there. -/
def wakes (w : WakeSource) (d : Dev) : Bool :=
  match w with
  | .select .a => d.power.railA.isSome
  | .select .b => d.power.railB.isSome
  | .mgmtAddress => d.power.railM.isSome
  | .speed => true
  | .resetPin => true
  | .alarm => d.time.alarms.any (fun a => decide (a.2 ≤ d.now))
  | .tamper => (latchedResponse d).isSome

/-- HIBERNATE_WAKE: start-up from phase 3, then STANDBY (R52, R53). -/
def execHibernateWake (w : WakeSource) (s : State) : Out :=
  liftR (fun d =>
    if d.power.state = .hibernate && wakes w d then
      let d := if w = .resetPin then latchCause Cause.pin d else d
      let d := restart 3 Cause.hibWake d
      ({ d with power := { d.power with standbyAfter := true } }, true)
    else (d, false)) s

/-- A power-state request that waited for a handover or a succession takes effect (interactions table, R619); the second result says
that the mailboxes and rings empty. -/
def settlePower (d : Dev) : Dev × Bool :=
  if d.fw.handover.isSome || d.succ.state == 1 || d.succ.state == 2 then (d, false)
  else
    let clear : Dev := { d with power := { d.power with deferred := none } }
    match d.power.deferred with
    | some .standby => (enterStandby clear, false)
    | some .hibernate => (enterHibernate clear, true)
    | some .active => (toPower .active clear, false)
    | _ => (d, false)

/-- The bank's K0-valid write is in progress. -/
def k0InProgress (inB : Bool) (d : Dev) : Bool := d.nvm.writes.any (fun w => match w.effect with
  | .pattern b _ _ (some _) => b == inB
  | _ => false)

/-- A pattern commit that PF_N has stopped before its K0-valid write: the bank is void and its command has had no effect (R50, R724). -/
def voidCommits (d : Dev) : Dev :=
  let void (inB : Bool) (d : Dev) : Dev :=
    if (bank d inB).k0 == some false && !k0InProgress inB d then setBank inB { bank d inB with k0 := none } d else d
  void true (void false { d with
    nvm := { d.nvm with writes := d.nvm.writes.filter (fun w => !isImageWrite w) }
    power := { d.power with pfnCmds := d.power.pfnCmds ++ (d.nvm.writes.filter isImageWrite).filterMap (·.req) } })

/-- A host command that restarts the device or changes its power state when its checks pass. -/
def restartCmd (op : Nat) (r : Req) (issuer : Dev → Res Unit) (body : Dev → Res (Dev × Bool)) (s : State) : Out :=
  liftR (fun d =>
    if r ∈ d.cmds ∧ r.opcode.toNat = op then
      let d0 := d
      let d := { d with cmds := d.cmds.erase r }
      if mustWait r d0 then (d0, false)
      else if r.deadline < d.now then (refuseWith r St.deadline 0 d, false)
      else
        match (do issuer d; dims r d; body d : Res (Dev × Bool)) with
        | .error e => (refuse r e d, false)
        | .ok x => x
    else (d, false)) s

/-- PF_N_RESUME: PF_N has been high for 10 ms (R50): the outcomes that waited, BUSY_RETRY for every other command, the records that
waited; the boot ROM fetches again from the first source (R161). -/
def execPfNResume (s : State) : Out :=
  liftR (fun d =>
    if !d.power.pfn then (d, false)
    else
      let d := voidCommits d
      let cmds := d.power.pfnCmds
      let replies := d.power.pfnReplies
      let d := { d with power := { d.power with pfn := false, pfnCmds := [], pfnReplies := [] } }
      let d := cmds.foldl (fun d r => complete r St.busyRetry [] 0 d) { d with done := d.done ++ replies }
      if d.boot.running then
        settlePower (attnBoth Attn.ready ((d.app.applets.map (·.ref)).foldl (fun d a => nextActivation a d) (flushOwed (flushDeferred d))))
      else if d.boot.refetch then (trySources (sourceOrder d.fw.bootMode) { d with boot := { d.boot with refetch := false } }, false)
      else if d.boot.progress == 0x0C then (attnBoth Attn.ready d, false)
      else (d, false)) s

/-- A host command after which a deferred power-state request may take effect. -/
def settleCmd (op : Nat) (r : Req) (issuer : Dev → Res Unit) (body : Dev → Res (Dev × Done)) (s : State) : Out :=
  restartCmd op r issuer (fun d =>
    match body d with
    | .error e => .error e
    | .ok (x, .reply st ws n) => .ok (settlePower (conclude r st ws n x))
    | .ok (x, .final g ws n) => .ok (settlePower (conclude { r with gen := g } St.ok ws n x))
    | .ok (x, .later) => .ok (dropStaged r.id true x, false)
    | .ok (x, .wait) => .ok (requeue r x, false)) s

-- Thermal limits (R54-R56)

/-- THERMAL_THROTTLE at 130 degC, released at 125 degC. -/
def execThermalThrottle (temp : Int) (s : State) : Out :=
  lift (fun d =>
    let d := setTemp temp d
    if !d.power.throttle && decide (2080 ≤ temp) then
      logAt Core.pmc 161 1 (intWord temp) false (alertBit Alert.throttle { d with
        power := { d.power with throttle := true }, mgmt := { d.mgmt with throttles := d.mgmt.throttles + 1 } })
    else if d.power.throttle && decide (temp ≤ 2000) then
      fillEngines 600 (logAt Core.pmc 161 0 (intWord temp) false { d with power := { d.power with throttle := false } })
    else d) s

/-- THERMAL_SHUTDOWN at 150 degC: after the writes in progress the active domain is held in reset; the cause is latched (R139). -/
def execThermalShutdown (temp : Int) (s : State) : Out :=
  liftR (fun d =>
    let powered := d.power.state = .active || d.power.state = .idle || d.power.state = .standby || d.power.state = .hibernate
    if powered && decide (2400 ≤ temp) then
      let d := latchCause Cause.thermal (finishWrites (setTemp temp d))
      let d := { d with
        boot := { d.boot with offSince := some ((d.boot.offSince).getD d.now) }
        mgmt := { d.mgmt with shutdowns := d.mgmt.shutdowns + 1 } }
      (powerDown .shutdown (abortOutgoing (abortHandover 2 d)), true)
    else (d, false)) s

/-- THERMAL_RESTART at or below 140 degC: phase 3, the THERMAL alert and, once SEC runs, the POWER record (R56). -/
def execThermalRestart (temp : Int) (s : State) : Out :=
  liftR (fun d =>
    if d.power.state = .shutdown && decide (temp ≤ 2240) then (alertBit Alert.thermal (restart 3 Cause.thermal (setTemp temp d)), true)
    else (d, false)) s

end Sys2Proof.Machine
end

