-- ==== Sys2Proof/Machine/Firmware.lean ====
section
/-! DEFINITION. Firmware live update and the log ring (14_firmware): class 0x0D but BOOT_PUSH, handovers. What the spec leaves
open here is DEDUCED, log 53. -/
namespace Sys2Proof.Machine

-- Flash slots (R585)

/-- A slot whose first 4 KiB sector (words 0 to 681 and the low four bytes of word 682) is erased. -/
def eraseSector (img : List Word) : List Word :=
  List.replicate 682 (BitVec.allOnes 48) ++ match img.drop 682 with
    | [] => []
    | w :: rest => (w ||| 0xFFFFFFFF#48) :: rest

def setSlotWords (slot : Nat) (ws : List Word) (d : Dev) : Dev :=
  if slot = 1 then { d with fw := { d.fw with slotA := ws } }
  else if slot = 2 then { d with fw := { d.fw with slotB := ws } } else d

/-- Words laid over the start of a slot's content. -/
def overSlot (ws img : List Word) : List Word := ws ++ img.drop ws.length

/-- The flash port reaches its part: the pads have their rail (R36) and no boundary scan holds them. -/
def flashReachable (d : Dev) : Bool := d.power.railA.isSome && !scanHoldsPorts d

/-- A flash operation: write enable, the command at its address, read status (R585). -/
def flashOp (command : Byte) (at' : Nat) : List FlashRead :=
  [{ command := 0x06 }, { command := command, address := BitVec.ofNat 24 at' }, { command := 0x05 }]

/-- What a write of the bytes from `lo` up to `hi` of a slot takes: each 64 KiB block and, in the first one, each 4 KiB sector is erased
as its first byte comes, then the 256-byte pages are programmed (R585; DESIGN CHOICE of the erase command, log 53). -/
def flashSequence (base lo hi : Nat) : List FlashRead :=
  ((List.range (ceilDiv hi 256 - lo / 256)).map (· + lo / 256)).flatMap (fun p =>
    (if p % 256 = 0 ∧ lo ≤ 256 * p ∧ p ≠ 0 then flashOp 0xD8 (base + 256 * p)
     else if p % 16 = 0 ∧ p < 256 ∧ lo ≤ 256 * p then flashOp 0x20 (base + 256 * p) else []) ++ flashOp 0x32 (base + 256 * p))

/-- SEC's sequence on the flash port. -/
def issueWrites (xs : List FlashRead) (d : Dev) : Dev := { d with fw := { d.fw with flashBus := xs } }

/-- The first sector is erased, when the flash can be reached. -/
def eraseFirst (slot : Nat) (d : Dev) : Dev :=
  if slot != 0 && flashReachable d then issueWrites (flashOp 0x20 (slotAddress slot).toNat) (setSlotWords slot (eraseSector (slotWords d slot)) d)
  else d

/-- The held sector is written. -/
def writeFirst (slot : Nat) (ws : List Word) (d : Dev) : Dev :=
  if slot = 0 then d else issueWrites (flashSequence (slotAddress slot).toNat 0 4096) (setSlotWords slot ws d)

/-- The staging slot: none in boot modes 0b01 and 0b10, else the slot the running bundle did not come from. -/
def stagingSlot (d : Dev) : Nat := if d.fw.bootMode = 1 ∨ d.fw.bootMode = 2 then 0 else if d.fw.source = 1 then 2 else 1

/-- The staged LIVE bundle (R590). -/
def stagedLive (d : Dev) : Option StageState :=
  match d.fw.stage with
  | some x => if x.target = 1 && x.complete then some x else none
  | none => none

/-- The staged bundle's words: the held sector, and the slot behind it. -/
def stagedWords (d : Dev) (x : StageState) : List Word := if x.slot = 0 then x.words else overSlot x.words (slotWords d x.slot)

-- Staging (R583-R587, R603)

/-- FW_STAGE_OPEN (R585-R587). -/
def execFwStageOpen (r : Req) (s : State) : Out :=
  hostCmd 0x0D01 r (fun _ => needAdmin r) (fun d => do
    let target := r.f 0 47 40
    param (r.sized 1 && onlyBits (r.w 0) [(47, 40)] && decide (1 ≤ target) && decide (target ≤ 3))
    param (target != 2 || stagingSlot d != 0)
    need (d.fw.pendingTypes.isEmpty && d.fw.handover.isNone && !fwStaging d) St.busyRetry
    let slot := if target = 3 then 0 else stagingSlot d
    let h := freeHandle d
    let d := eraseFirst slot d
    let d := { d with fw := { d.fw with
      fallback := if target = 3 then [] else d.fw.fallback, loaded := none
      stage := some { target := target, slot := slot, handle := h } } }
    startLong r 3 0 .stage [mkWord [(47, 40, slot)]] d) s

/-- Words a bundle of a staging target may have. -/
def stageLimit (target : Nat) : Nat := if target = 3 then 174762 else 524288

/-- Largest component in words: 448 KiB (R574). -/
def componentLimit : Nat := 448 * 1024 / 6

/-- The first check of R584 that fails once the words behind `old` have arrived. -/
def stageCheck (d : Dev) (target old : Nat) (ws : List Word) (last : Bool) : Option Byte :=
  let n := ws.length
  let es := dirEntries ws
  if decide (3 ≤ n) && bRollback d ws then some St.fwRollback
  else if decide (4 ≤ n) && target = 2 && bBuild ws != d.fw.committed then some St.fwStageInvalid
  else if decide (4 ≤ n) && decide (bHeadLen ws ≤ n) && decide (old < bHeadLen ws) &&
      !(wd ws 0 == bundleMagic && bFormat ws && dirOk ws && bSigned d ws && es.all (fun e => decide (e.length ≤ componentLimit))) then
    some St.fwStageInvalid
  else if decide (4 ≤ n) && decide (bHeadLen ws ≤ n) &&
      es.any (fun e => decide (old < e.offset + e.length) && decide (e.offset + e.length ≤ n) && !entryOk ws e) then some St.fwStageInvalid
  else if decide (stageLimit target < n) then some St.fwStageInvalid
  else if last && !(decide (4 ≤ n) && decide (bHeadLen ws ≤ n) && n == bTotal ws && es.all (fun e => decide (e.offset + e.length ≤ n))) then
    some St.fwStageInvalid
  else none

/-- A staging that has passed its last check: the targets table, R585, R586, FW_EVENT 1. -/
def stageDone (x : StageState) (ws : List Word) (d : Dev) : Dev :=
  let keep : List Word := if x.slot = 0 then ws.take (bHeadLen ws) else ws.take 683
  let d := match x.target with
    | 1 => { d with fw := { d.fw with stage := some { x with words := keep, complete := true } } }
    | 2 => writeFirst x.slot (overSlot ws (slotWords d x.slot)) { d with fw := { d.fw with stage := none } }
    | _ => { d with fw := { d.fw with stage := none, fallback := ws } }
  fwEvent 0 1 (x.target * 2 ^ 40 + bBuild ws) (finishLong x.handle .done St.ok d)

/-- FW_STAGE_CHUNK (R583-R586, R603, R700). -/
def execFwStageChunk (r : Req) (flashOk : Bool) (s : State) : Out :=
  hostCmd 0x0D02 r (fun _ => needAdmin r) (fun d => do
    param (r.sized r.words.length && r.sizedMin 2 && onlyBits (r.w 0) [(24, 24), (23, 0)] && onlyBits (r.w 1) [(31, 0)])
    let l ← needLong r (r.f 0 23 0) 3 d
    param (longRunning l)
    match d.fw.stage with
    | none => rej St.paramRange
    | some x => do
      param (x.handle == l.handle && r.f 1 31 0 == x.words.length)
      let ws := x.words ++ r.words.drop 2
      let last := bitOf (r.w 0) 24
      match stageCheck d x.target x.words.length ws last with
      | some st => .ok (flushOwed (finishLong l.handle .failed st d), .reply st [] 0)
      | none =>
        if x.slot != 0 && !(flashOk && flashReachable d) then .ok (finishLong l.handle .failed St.internalFault d, .reply St.internalFault [] 0)
        else
          let d := modLong l.handle (fun l => { l with units := l.units + 1 }) d
          let d := { d with fw := { d.fw with stage := some { x with words := ws } } }
          let d := if x.slot = 0 then d
            else issueWrites (flashSequence (slotAddress x.slot).toNat (max 4096 (6 * x.words.length)) (6 * ws.length))
              (setSlotWords x.slot (eraseSector (overSlot ws (slotWords d x.slot))) d)
          let d := if last then stageDone x ws d else suspensionPoint l.handle d
          okWords (flushOwed d) [word ws.length]) s

-- FW_LOAD (R589, R590)

def stagedEntry (ws : List Word) (t : Nat) : Option DirEntry := (dirEntries ws).find? (fun e => e.ctype == t)

/-- A component that has been loaded whole is kept only when its digest is the staged one. -/
def loadWhole (t : Nat) (ws : List Word) (e : DirEntry) (d : Dev) : Res (Dev × Done) :=
  if sha384 (wordsBytes ws) == e.digest then okWords { d with fw := { d.fw with loaded := some (t, ws, true) } } [word ws.length]
  else .ok ({ d with fw := { d.fw with loaded := none } }, .reply St.fwStageInvalid [] 0)

/-- FW_LOAD: the component comes from the staging slot, or in chunks from the host. -/
def execFwLoad (r : Req) (s : State) : Out :=
  hostCmd 0x0D03 r (fun _ => needAdmin r) (fun d => do
    let t := r.f 0 47 40
    param (r.sized r.words.length && r.sizedMin 2 && onlyBits (r.w 0) [(47, 40), (24, 24)] && onlyBits (r.w 1) [(31, 0)])
    param (decide (1 ≤ t) && decide (t ≤ 5))
    match stagedLive d with
    | none => rej St.paramRange
    | some x =>
      match stagedEntry (stagedWords d x) t with
      | none => rej St.paramRange
      | some e => do
        need d.fw.handover.isNone St.busyRetry
        if x.slot != 0 then do
          param (r.sized 2)
          loadWhole t (if flashReachable d then entryWords (stagedWords d x) e else []) e d
        else do
          let have_ : List Word := match d.fw.loaded with
            | some (u, ws, false) => if u = t && r.f 1 31 0 != 0 then ws else []
            | _ => []
          let ws := have_ ++ r.words.drop 2
          param (r.f 1 31 0 == have_.length && decide (ws.length ≤ e.length))
          if bitOf (r.w 0) 24 then loadWhole t ws e d
          else okWords { d with fw := { d.fw with loaded := some (t, ws, false) } } [word ws.length]) s

-- Handover (R590-R597)

/-- A new phase, with trace point 3. -/
def toPhase (n : Nat) (d : Dev) : Dev :=
  match d.fw.handover with
  | none => d
  | some h => logAt Core.sec 3 (mkWord [(15, 8, h.ctype), (7, 0, n)]) (word h.newBuild) false
      { d with fw := { d.fw with handover := some { h with phase := n } } }

/-- FW_HANDOVER: phase 1, and phase 2 with it (R590, R591). -/
def execFwHandover (r : Req) (s : State) : Out :=
  hostCmd 0x0D04 r (fun _ => needAdmin r) (fun d => do
    let t := r.f 0 47 40
    param (r.sized 1 && onlyBits (r.w 0) [(47, 40)])
    match stagedLive d, d.fw.loaded with
    | some x, some (u, _, true) => do
      param (u == t)
      need (d.fw.handover.isNone && d.succ.state != 1 && d.succ.state != 2) St.busyRetry
      let new := bBuild x.words
      let h : HandoverState := { ctype := t, phase := 1, newBuild := new, began := d.now, req := r }
      okLater (toPhase 2 (toPhase 1 (fwEvent t 2 new { d with fw := { d.fw with handover := some h } })))
    | _, _ => rej St.paramRange) s

/-- Words HR0-HR12 of the record that the old image writes at its seam point (R595); its version and its body are private to the pair of
images (log 53). -/
def handoverRecord (d : Dev) (h : HandoverState) : List Word :=
  let n := Config.unstated 66 [h.ctype, d.now]
  [mkWord [(47, 40, 1), (39, 32, h.ctype), (31, 16, Config.unstated 65 [h.ctype])], mkWord [(31, 0, buildOf d h.ctype)],
    mkWord [(31, 0, h.newBuild)], d.time.tick, mkWord [(31, 0, n)]]
    ++ fitW 8 (bytesWords (sha384 ((List.range (6 * n)).map (fun i => BitVec.ofNat 8 (Config.unstated 67 [h.ctype, d.now, i])))))

/-- HANDOVER_SEAM_POINT: phase 3 writes the record, then phase 4 begins, which the monitor watches (R591, R593, R595). A tamper response
that is due comes first (R17). -/
def execHandoverSeamPoint (s : State) : Out :=
  lift (fun d =>
    match d.fw.handover with
    | some h =>
      if h.phase = 2 && !responseDue d then
        toPhase 4 (toPhase 3 { d with fw := { d.fw with handover := some { h with seamTick := d.now, record := handoverRecord d h } } })
      else d
    | none => d) s

/-- HANDOVER_QUIESCE_TIMEOUT: no seam point within 50 ms (R591). -/
def execHandoverQuiesceTimeout (s : State) : Out :=
  liftR (fun d =>
    match d.fw.handover with
    | some h => if h.phase = 2 && decide (h.began + msTicks 50 ≤ d.now) then settlePower (failHandover 7 h d) else (d, false)
    | none => (d, false)) s

/-- HANDOVER_MONITOR_TIMEOUT: no adoption within 200 ms (R593). -/
def execHandoverMonitorTimeout (s : State) : Out :=
  liftR (fun d =>
    match d.fw.handover with
    | some h => if h.phase = 4 && decide (h.seamTick + msTicks 200 ≤ d.now) then settlePower (failHandover 5 h d) else (d, false)
    | none => (d, false)) s

/-- Every component runs the staged bundle's image (R597). -/
def allAdopted (d : Dev) (x : StageState) : Bool :=
  (dirEntries x.words).all (fun e => d.fw.running.any (fun c => c.ctype == e.ctype && c.build == bBuild x.words && c.digest == e.digest))

/-- The bundle commit (R585, R597). -/
def commitBundle (x : StageState) (d : Dev) : Dev :=
  let b := bBuild x.words
  let d := writeFirst x.slot (stagedWords d x) d
  let d := { d with fw := { d.fw with
    committed := b, pendingTypes := [], stage := none, header := x.words.take 4, source := if x.slot = 0 then d.fw.source else x.slot } }
  let d := fwEvent 0 3 (x.slot * 2 ^ 32 + b) d
  if x.slot = 2 then eraseFirst 1 d else d

/-- The new image has adopted the record: phase 5 (R596), and the bundle commit when it was the last component. -/
def adoptImage (h : HandoverState) (pause : Nat) (d : Dev) : Dev :=
  let p := min 65535 pause
  let d := toPhase 5 d
  let digest : List Byte := match d.fw.loaded with
    | some (_, ws, _) => sha384 (wordsBytes ws)
    | none => []
  let d := { d with fw := { d.fw with
    running := modWhere (fun c => c.ctype == h.ctype) (fun c => { c with build := h.newBuild, digest := digest }) d.fw.running
    pendingTypes := (h.ctype, h.newBuild) :: d.fw.pendingTypes.filter (fun x => x.1 != h.ctype)
    handover := none, loaded := none } }
  let d := fwEvent h.ctype 3 (p * 2 ^ 32 + h.newBuild) d
  let d := match stagedLive d with
    | some x => if allAdopted d x then commitBundle x d else d
    | none => d
  complete h.req St.ok [mkWord [(47, 32, p)]] 6 d

/-- The record fits the new image: format, component type and its own build (R595). -/
def recordFits (h : HandoverState) : Bool :=
  fld (wd h.record 0) 47 40 == 1 && fld (wd h.record 0) 39 32 == h.ctype && fld (wd h.record 2) 31 0 == h.newBuild

/-- HANDOVER_ADOPTION: the new image reports, with a reason or with the pause it took (R594-R597); a record that does not fit is not
adopted (R595). A tamper response that is due comes first (R17). -/
def execHandoverAdoption (reason : Byte) (pause : Nat) (s : State) : Out :=
  liftR (fun d =>
    match d.fw.handover with
    | some h =>
      if h.phase != 4 || responseDue d then (d, false)
      else settlePower (if reason = 0 && recordFits h then adoptImage h pause d
        else failHandover (if reason = 0 then 1 else reason.toNat) h d)
    | none => (d, false)) s

-- FW_VERSION_COMMIT (R599, R600)

/-- Header words of the committed bundle (DEDUCED, log 48). -/
def committedHeader (d : Dev) : List Word :=
  ([d.fw.header, d.fw.slotA, d.fw.slotB, d.fw.fallback].find? (fun ws => bBuild ws == d.fw.committed && decide (4 ≤ ws.length))).getD d.fw.header

/-- A bundle would pass R155 under the given versions. -/
def notBelow (ws : List Word) (major minor : Nat) : Bool :=
  decide (major < bMajor ws) || (bMajor ws == major && decide (minor ≤ bMinor ws))

/-- FW_VERSION_COMMIT. -/
def execFwVersionCommit (r : Req) (fuse : FuseEnd) (s : State) : Out :=
  hostCmd 0x0D05 r (fun _ => needAdmin r) (fun d => do
    param (r.len == 0 && (stagedLive d).isNone)
    let h := committedHeader d
    let rises := decide (d.secVersion < bMajor h)
    let major := if rises then bMajor h else d.secVersion
    let minor := if rises || decide (d.boot.secMinor < bMinor h) then bMinor h else d.boot.secMinor
    param (decide (major ≤ 64))
    need (fallbackValid d && notBelow d.fw.fallback major minor) St.fwRollback
    need (!rises || fuseWindow d) St.busyRetry
    let d := if rises then blowGroup 2 (0x0A + (major - 1) / 24) ((major - 1) % 24) fuse d else d
    if rises && fuse ≠ .programmed then fuseStopped fuse d
    else
      let d := { d with boot := { d.boot with secMinor := minor } }
      let w := mkWord [(30, 24, major), (23, 0, minor)]
      okWords (fwEvent 0 6 w.toNat d) [w]) s

-- FW_STATUS, FW_RESTART, LOG_READ (R606)

def fwStatusWords (d : Dev) : List Word :=
  let fb := fallbackValid d
  [mkWord [(39, 32, d.fw.source), (31, 0, d.fw.committed)],
    mkWord [(47, 40, (d.fw.handover.map (·.ctype)).getD 0), (39, 32, (d.fw.handover.map (·.phase)).getD 0),
      (31, 0, ((stagedLive d).map (fun x => bBuild x.words)).getD 0)]]
  ++ [1, 2, 3, 4, 5].map (fun t => mkWord [(40, 40, flag (d.fw.pendingTypes.any (fun x => x.1 == t))), (31, 0, buildOf d t)])
  ++ [mkWord [(40, 40, flag fb), (31, 0, if fb then bBuild d.fw.fallback else 0)],
    if fb then mkWord [(47, 40, bMajor d.fw.fallback), (39, 16, bMinor d.fw.fallback)] else 0]

/-- FW_STATUS. -/
def execFwStatus (r : Req) (s : State) : Out :=
  hostCmd 0x0D06 r (fun _ => needAdmin r) (fun d => do
    param (r.len == 0)
    okWords d (fwStatusWords d)) s

/-- FW_RESTART: phase 5 with reset cause COMMAND; the reply is lost with the rings (R222). -/
def execFwRestart (r : Req) (s : State) : Out :=
  restartCmd 0x0D07 r (fun _ => needAdmin r) (fun d => do
    param (r.len == 0)
    .ok (restart 5 Cause.command (finishWrites d), true)) s

def LogEntry.words (e : LogEntry) : List Word :=
  [e.tick, mkWord [(47, 40, e.core.toNat), (39, 31, e.point), (23, 0, e.seq.toNat)], e.arg0, e.arg1]

/-- Entries held, the oldest's number, the drop count, and the entries a read asks for. -/
def logWords (count first : Nat) (d : Dev) : List Word :=
  [mkWord [(39, 24, d.fw.log.length), (23, 0, ((d.fw.log.head?).map (fun e => e.seq.toNat)).getD 0)], mkWord [(23, 0, d.fw.drops)]]
    ++ (slice d.fw.log first count).flatMap LogEntry.words

/-- LOG_READ. -/
def execLogRead (r : Req) (s : State) : Out :=
  hostCmd 0x0D10 r (fun _ => needAdmin r) (fun d => do
    let limit := if r.origin = .port .b then 2046 else 2730
    param (r.sized 1 && onlyBits (r.w 0) [(31, 16), (15, 0)] && decide (r.f 0 31 16 ≤ limit))
    okWords d (logWords (r.f 0 31 16) (r.f 0 15 0) d)) s

end Sys2Proof.Machine
end

