-- ==== Sys2Proof/Machine/Mgmt.lean ====
section
/-! DEFINITION. The management port: registers, packets and class 0x10 (15_service_life, R607-R626, R649, R651). What the spec leaves
open here is DEDUCED, log 55. -/
namespace Sys2Proof.Machine

-- The port (R607-R612)

/-- The port acknowledges its address: VDD and VDDIO_M are there, from ROM entry on, and PMC is not halted (R695). -/
def mgmtLive (d : Dev) : Bool :=
  d.power.railM.isSome && (d.power.state = .active || d.power.state = .idle || d.power.state = .standby) && d.boot.progress != 0 &&
    !d.dbg.halted.contains 2 && !scanHoldsPorts d

/-- Words of consecutive PKT_WINDOW_WRITEs belong to one write transaction; any other operation of the port ends it (R608; DESIGN
CHOICE, log 82). -/
def endTransaction (d : Dev) : Dev := { d with mgmt := { d.mgmt with taken := 0 } }

/-- A management transaction wakes the device from STANDBY (R52). -/
def mgmtTouch (f : Dev → Dev) (s : State) : Out :=
  lift (fun d =>
    if mgmtLive d then f (if d.power.state = .standby then { d with power := { d.power with state := .active } } else d) else d) s

/-- ABORT discards the request (R612). -/
def abortPacket (d : Dev) : Dev := { d with mgmt := { d.mgmt with window := [], taken := 0 } }

/-- RELEASE frees the reply (R612). -/
def releasePacket (d : Dev) : Dev := { d with mgmt := { d.mgmt with reply := none, readAt := 0, taken := 0 } }

-- Packets (R613-R618, R649)

/-- Authenticated packets are refused after 16 failures (R649). -/
def mgmtLocked (d : Dev) : Bool := (d.mgmt.lockEnd.map (fun e => decide (d.now < e))).getD false

/-- A SESSION_MAC or REPLAY outcome; the sixteenth in a row begins the refusal of R649. -/
def mgmtBad (d : Dev) : Dev :=
  if 16 ≤ d.mgmt.bad + 1 then { d with mgmt := { d.mgmt with bad := 0, lockEnd := some (d.now + 4096) } }
  else { d with mgmt := { d.mgmt with bad := d.mgmt.bad + 1 } }

/-- The checks of an authenticated packet (R614-R616, R649), with the status that refuses it. -/
def mgmtVerify (r : Req) (head payload mac : List Word) (d : Dev) : Dev × Option Byte :=
  if mgmtLocked d then (d, some St.busyRetry)
  else
    match mgmtKey d with
    | none => (d, some St.policyRefused)
    | some k =>
      if r.w 0 ≤ d.mgmt.counter then (mgmtBad d, some St.replay)
      else if (cmac k (wordsBytes (head ++ payload))).take 12 != wordsBytes mac then (mgmtBad d, some St.sessionMac)
      else if d.time.bucket == 0 || d.power.pfn then (d, some St.busyRetry)
      else (healthWrite 6 { d with
        time := { d.time with bucket := d.time.bucket - 1 }
        mgmt := { d.mgmt with counter := r.w 0, bad := 0, lockEnd := none } }, none)

/-- The packet executes: PKT_BUSY until its reply. -/
def mgmtAdmit (r : Req) (d : Dev) : Dev := { d with cmds := d.cmds ++ [r], mgmt := { d.mgmt with busy := some r } }

/-- The packets that the boot ROM serves itself (R618). -/
def romPacket (r : Req) : Bool := [0x1001, 0x1002, 0x1030].contains r.opcode.toNat

/-- What becomes of a packet that is whole: who serves it (R618), the form of R613, the opcode's kind, and its checks. An open packet
has no MAC to verify: one that sets flag bit 3 has set a reserved bit (R10). -/
def mgmtAccepted (r : Req) (head payload mac : List Word) (d : Dev) : Dev :=
  let kind := (mgmtOpcodes.find? (fun x => x.1 == r.opcode.toNat)).map (·.2)
  if !d.boot.running && !romPacket r then complete r St.busyRetry [] 0 d
  else
    let (d, st) := if r.mac && d.boot.running then mgmtVerify r head payload mac d else (d, none)
    match st with
    | some st => refuseWith r st 0 d
    | none =>
      if !(r.tenant == 0xFF && r.session == 0 && (r.flags == 0 || r.flags == 8) && padOk r) then complete r St.paramRange [] 0 d
      else if kind.isNone then complete r St.opcodeUnknown [] 0 d
      else if r.layout != 1 then complete r St.layoutRevision [] 0 d
      else if kind == some true && !r.mac then refuseWith r St.policyRefused 0 d
      else if kind == some false && r.mac then complete r St.paramRange [] 0 d
      else mgmtAdmit r d

/-- SUBMIT's effect (R194, R613, R617). -/
def submitPacket (d : Dev) : Dev :=
  if d.mgmt.busy.isSome || d.mgmt.reply.isSome then d
  else
    let ws := d.mgmt.window
    let n := ceilDiv (frameLen ws) 6
    let r : Req := { frameReq .a ws with origin := .mgmt, ringWords := 0, id := d.nextId, gen := d.pat.gen, start := d.now
                                         deadline := 2 ^ 48, words := slice ws 2 n }
    let d := abortPacket { d with nextId := d.nextId + 1 }
    let plain : Req := { r with flags := 0 }
    if ws.length < 3 ∨ frameWords ws ≠ ws.length ∨ 1494 < frameLen ws then complete plain St.frameLength [] 0 d
    else if (crc32c (wordsBytes ws.dropLast)).toNat ≠ fld (ws.getLastD 0) 31 0 then complete plain St.frameCrc [] 0 d
    else if r.version ≠ 2 ∧ r.version ≠ 3 then complete plain St.formatVersion [] 0 d
    else mgmtAccepted r (ws.take 2) (slice ws 2 n) (slice ws (2 + n) 2) d

/-- SUBMIT. -/
def execSubmit (s : State) : Out := mgmtTouch (fun d => submitPacket (endTransaction d)) s

/-- ABORT. -/
def execAbort (s : State) : Out := mgmtTouch abortPacket s

/-- RELEASE. -/
def execRelease (s : State) : Out := mgmtTouch releasePacket s

/-- PKT_WINDOW_WRITE: the next request word (R612). -/
def execPktWindowWrite (value : Word) (s : State) : Out :=
  mgmtTouch (fun d => { d with mgmt := { d.mgmt with window := d.mgmt.window ++ [value], taken := d.mgmt.taken + 1 } }) s

/-- What a read of PKT_WINDOW returns (R612). -/
def pktWindow (d : Dev) : Word := ((d.mgmt.reply.getD [])[d.mgmt.readAt]?).getD 0

/-- PKT_WINDOW_READ: the pointer moves on to the next reply word, and past the last one it stays. -/
def execPktWindowRead (s : State) : Out :=
  mgmtTouch (fun d => let d := endTransaction d
    if d.mgmt.readAt < (d.mgmt.reply.getD []).length then { d with mgmt := { d.mgmt with readAt := d.mgmt.readAt + 1 } } else d) s

/-- MGMT_TRANSACTION_TIMEOUT (R63): the bus is released and the transaction discarded, with the words that it has brought into
PKT_WINDOW; the bytes of an incomplete word were never taken (R609). -/
def execMgmtTransactionTimeout (s : State) : Out :=
  lift (fun d => { d with mgmt := { d.mgmt with window := d.mgmt.window.take (d.mgmt.window.length - d.mgmt.taken), taken := 0 } }) s

/-- MGMT_LOCKOUT_END (R649). -/
def execMgmtLockoutEnd (s : State) : Out :=
  lift (fun d => if d.mgmt.lockEnd.isSome && !mgmtLocked d then { d with mgmt := { d.mgmt with lockEnd := none } } else d) s

/-- A write to a management register: W1C, RW and the write-only PKT_CONTROL, bit 0 first (R609-R612). -/
def mgmtRegWrite (i : Nat) (v : Word) (d0 : Dev) : Dev :=
  let d := if i = 0x10 then d0 else endTransaction d0
  match i with
  | 1 => { d with mgmt := { d.mgmt with alert := d.mgmt.alert &&& ~~~(v.setWidth 12) } }
  | 2 => { d with mgmt := { d.mgmt with amask := v.setWidth 12 } }
  | 8 =>
    let d := if bitOf v 0 then submitPacket d else d
    let d := if bitOf v 1 then abortPacket d else d
    if bitOf v 2 then releasePacket d else d
  | 0x10 => { d with mgmt := { d.mgmt with window := d.mgmt.window ++ [v], taken := d.mgmt.taken + 1 } }
  | _ => d

/-- REG_WRITE of a port or management register (R176, R608). -/
def execRegWrite (f : RegFile) (index : Byte) (value : Word) (s : State) : Out :=
  match f with
  | .port p => lift (fun d => if portLive d p then portRegWrite p index.toNat value d else d) s
  | .mgmt => mgmtTouch (mgmtRegWrite index.toNat value) s

-- Class 0x10 (R651)

/-- Units out of service, as MGMT_INFO W4 shows them. -/
def fenceWord (d : Dev) : Word :=
  let bits (n : Nat) (f : Nat → Bool) : Nat := ((List.range n).map (fun i => if f i then 2 ^ i else 0)).foldl (· + ·) 0
  mkWord [(8, 0, bits 9 (fun l => (d.sym.lanes.getD l {}).fenced || factoryFenced d l)), (12, 9, bits 4 (clusterOut d)),
    (14, 13, bits 2 (fun e => !engineServes d e)), (18, 15, bits 4 (fun c => (d.sym.clusters.getD c {}).hashFenced))]

/-- MGMT_INFO. -/
def execMgmtInfo (r : Req) (s : State) : Out :=
  hostCmd 0x1001 r (fun _ => .ok ()) (fun d => do
    param (r.len == 0)
    okWords d ([mgmtReg d 0] ++ d.serial ++ [mkWord [(23, 0, d.pat.gen)], fenceWord d, mkWord [(31, 0, d.fw.committed)]])) s

/-- MGMT_SENSORS; the class bits run from group A at bit 40 to group M at bit 42 (log 33); VDD and the core rail are those of the last
start, and no row brings a VBAT reading, so it is free (log 14). -/
def execMgmtSensors (r : Req) (s : State) : Out :=
  hostCmd 0x1002 r (fun _ => .ok ()) (fun d => do
    param (r.len == 0)
    let p := d.power
    let cls (x : Option Bool) : Nat := flag (x.getD false)
    okWords d ((List.range 4).map (fun i => mkWord [(23, 0, (intWord (p.temps.getD i 0)).toNat)])
      ++ [mkWord [(47, 32, p.vdd), (31, 16, Config.unstated 151 [d.now]), (15, 0, d.boot.input.coreRail)],
        mkWord [(40, 40, cls p.railA), (41, 41, cls p.railB), (42, 42, cls p.railM), (31, 0, d.time.c1Count)]])) s

/-- Words of a health store section (128 to a row). -/
def healthSize (sec : Nat) : Nat := 128 * [0, 64, 4, 2, 1, 1, 1].getD sec 0

/-- What a section holds, as numbers. -/
def healthContent (d : Dev) (sec : Nat) : List Nat :=
  match sec with
  | 1 => d.mgmt.traceCopyTick :: d.mgmt.traceCopy.map (·.toNat)
  | 2 => (fenceWord d).toNat :: d.nvm.remaps.flatMap (fun m => [m.1, m.2])
  | 3 => d.mgmt.kept.flatMap (fun x => [x.src, x.tick, x.dist, x.value.toNat, x.level, x.flags]) ++
      d.mgmt.transitions.flatMap (fun t => [t.1, t.2.1, t.2.2])
  | 4 => [(intWord d.mgmt.minTemp).toNat, (intWord d.mgmt.maxTemp).toNat, d.mgmt.throttles, d.mgmt.shutdowns] ++ d.mgmt.stateTicks
  | 5 => d.mgmt.faults.flatMap (fun f => [f.1, f.2.toNat])
  | _ => [d.mgmt.nextAddress.toNat, d.mgmt.counter.toNat]

/-- A word of a section: the spec names the content and gives no layout for it (log 13). -/
def healthWord (d : Dev) (sec i : Nat) : Word := word (Config.unstated 100 (sec :: i :: healthContent d sec))

/-- MGMT_HEALTH_READ; the count is read from [15:8], which the section field of the table leaves it (log 33). -/
def execMgmtHealthRead (r : Req) (s : State) : Out :=
  hostCmd 0x1003 r (fun _ => .ok ()) (fun d => do
    let sec := r.f 0 7 0
    let first := r.f 0 31 16
    let n := r.f 0 15 8
    param (r.sized 1 && onlyBits (r.w 0) [(31, 0)] && decide (1 ≤ sec) && decide (sec ≤ 6) && decide (1 ≤ n) && decide (n ≤ 248)
      && decide (first + n ≤ healthSize sec))
    okWords d ((List.range n).map (fun i => healthWord d sec (first + i)))) s

/-- MGMT_LOG_READ. -/
def execMgmtLogRead (r : Req) (s : State) : Out :=
  hostCmd 0x1004 r (fun _ => .ok ()) (fun d => do
    param (r.sized 1 && onlyBits (r.w 0) [(31, 0)] && decide (1 ≤ r.f 0 31 16) && decide (r.f 0 31 16 ≤ 61))
    okWords d (logWords (r.f 0 31 16) (r.f 0 15 0) d)) s

/-- A command of kind A: an authenticated packet. -/
def needAuth (r : Req) : Res Unit := need (r.origin == .mgmt && r.mac) St.policyRefused

/-- Every halt is released (R696). -/
def releaseHalts (d : Dev) : Dev := { d with dbg := { d.dbg with halted := [] } }

/-- MGMT_POWER (R619, R696). -/
def execMgmtPower (r : Req) (s : State) : Out :=
  restartCmd 0x1010 r (fun _ => needAuth r) (fun d => do
    param (r.sized 2 && onlyBits (r.w 1) [(7, 0)] && (r.f 1 7 0 == 2 || r.f 1 7 0 == 3))
    let dest : Power := if r.f 1 7 0 == 2 then .standby else .hibernate
    let d := complete r St.ok [] 0 { releaseHalts d with power := { d.power with deferred := some dest } }
    .ok (settlePower d)) s

/-- MGMT_ADDRESS (R607). -/
def execMgmtAddress (r : Req) (s : State) : Out :=
  hostCmd 0x1011 r (fun _ => needAuth r) (fun d => do
    param (r.sized 2 && onlyBits (r.w 1) [(6, 0)] && decide (0x08 ≤ r.f 1 6 0) && decide (r.f 1 6 0 ≤ 0x77))
    okNone (healthWrite 6 { d with mgmt := { d.mgmt with nextAddress := BitVec.ofNat 7 (r.f 1 6 0) } })) s

-- Fences by command (R624-R626)

/-- A UNIT code of the FENCE record. -/
def isUnit (u : Nat) : Bool :=
  decide (u ≤ 8) || (decide (0x10 ≤ u) && decide (u ≤ 0x13)) || u == 0x20 || u == 0x21 || (decide (0x30 ≤ u) && decide (u ≤ 0x33))

/-- The unit is out of service by fuse. -/
def unitByFuse (d : Dev) (u : Nat) : Bool :=
  if u ≤ 8 then factoryFenced d u else if u < 0x20 then factoryFenced d (9 + (u - 0x10)) else false

/-- The unit has a fence of its own. -/
def unitFenced (d : Dev) (u : Nat) : Bool :=
  if u ≤ 8 then (d.sym.lanes.getD u {}).fenced
  else if u < 0x20 then (d.sym.clusters.getD (u - 0x10) {}).fenced
  else if u < 0x30 then !engineServes d (u - 0x20)
  else (d.sym.clusters.getD (u - 0x30) {}).hashFenced

/-- Fences a unit with CAUSE 7. -/
def fenceUnit (u : Nat) (d : Dev) : Dev :=
  if unitFenced d u || unitByFuse d u then d
  else if u ≤ 8 then fillLanes (fenceLaneFor u 7 d)
  else if u < 0x20 then fillLanes (fenceRecord u 7 (reportFence u 7 (fenceCluster (u - 0x10) d)))
  else if u < 0x30 then fillEngines 600 (failPkStranded (fenceEngine (u - 0x20) 7 d))
  else fenceRecord u 7 (reportFence u 7 (modCluster (u - 0x30) (fun c => { c with hashFenced := true }) d))

/-- Lifts a unit's fence and updates the REPAIR section (R626); a lane's stand-in returns to spare. -/
def liftFence (u : Nat) (d : Dev) : Dev :=
  let d : Dev :=
    if u ≤ 8 then
      let d := modLane u (fun x => { x with fenced := false, mismatches := [], owesKat := false }) d
      { d with sym := { d.sym with standIn := if d.sym.standIn == some u then none else d.sym.standIn } }
    else if u < 0x20 then modCluster (u - 0x10) (fun c => { c with fenced := false, lastExpiry := none }) d
    else if u < 0x30 then modEngine (u - 0x20) (fun e => { e with fenced := false, fails := [] }) d
    else modCluster (u - 0x30) (fun c => { c with hashFenced := false }) d
  fillEngines 600 (fillLanes (healthWrite 2 (fenceRecord u 0 d)))

/-- MGMT_FENCE. -/
def execMgmtFence (r : Req) (s : State) : Out :=
  hostCmd 0x1020 r (fun _ => needAuth r) (fun d => do
    param (r.sized 2 && onlyBits (r.w 1) [(7, 0)] && isUnit (r.f 1 7 0))
    okNone (fenceUnit (r.f 1 7 0) d)) s

/-- The unit's known-answer test has run (R580 point 210). -/
def unfenceTested (u : Nat) (passed : Bool) (d : Dev) : Dev := logAt Core.sch 210 (word u) (word (flag passed)) false d

/-- MGMT_UNFENCE (R626). -/
def execMgmtUnfence (r : Req) (passed : Bool) (s : State) : Out :=
  hostCmd 0x1021 r (fun _ => needAuth r) (fun d => do
    let u := r.f 1 7 0
    param (r.sized 2 && onlyBits (r.w 1) [(7, 0)] && isUnit u)
    need (!unitByFuse d u) St.policyRefused
    let d := unfenceTested u passed d
    if passed then okNone (if unitFenced d u then liftFence u d else d) else .ok (d, .reply St.internalFault [] 0)) s

/-- MGMT_BUNDLE_PUSH (R149-R151, R158, R622), not while PF_N is recognised (R46): in RECOVERY the push counts as one of port A in the BOOT record (log 31). -/
def execMgmtBundlePush (r : Req) (s : State) : Out :=
  lift (fun d =>
    if r ∈ d.cmds ∧ r.opcode = 0x1030 ∧ !romHalted d then
      let d := { d with cmds := d.cmds.erase r }
      let n := r.words.length - 1
      if d.power.pfn then complete r St.busyRetry [] 0 d
      else if d.boot.progress != 0x05 && d.boot.progress != 0x0C then complete r St.opcodeUnknown [] 0 d
      else if !(r.sized (n + 1) && onlyBits (r.w 0) [(47, 47), (31, 0)] && decide (1 ≤ n) && decide (n ≤ 248)) then
        complete r St.paramRange [] 0 d
      else
        let src := if d.boot.progress == 0x05 then d.fw.source else 3
        let (st, start, d) := pushChunk src (r.w 0) (r.words.drop 1) d
        let img := d.boot.push
        let d := complete r st [] 0 d
        if start then startFirmware src img d else d
    else d) s

/-- MGMT_RESTART: phase 5 with cause COMMAND. -/
def execMgmtRestart (r : Req) (s : State) : Out :=
  restartCmd 0x1040 r (fun _ => needAuth r) (fun d => do
    param (r.sized 1)
    .ok (restart 5 Cause.command (finishWrites d), true)) s

end Sys2Proof.Machine
end

