-- ==== Sys2Proof/Machine/Debug.lean ====
section
/-! DEFINITION. Debug and boundary scan (17_debug): the test access port, attachments, the debug access register. What the spec leaves
open here is DEDUCED, log 58. -/
namespace Sys2Proof.Machine

-- Access (R684, R685, R702)

/-- The TAP runs in the active domain. -/
def tapLive (d : Dev) : Bool := d.power.state = .active || d.power.state = .idle || d.power.state = .standby

/-- The state offers boundary scan and debug access (R684); RETURNED once the base key and the persistent store are gone (R121). -/
def tapOpen (d : Dev) : Bool :=
  match d.lifecycle with
  | .blank => true
  | .manufacture => true
  | .returned => (baseKey d).isNone && d.keys.slots.all (fun s => !isPersistent s.index)
  | _ => d.isD

/-- A core code of the debug access register. -/
def coreCodeOk (c : Nat) : Bool := decide (1 ≤ c) && decide (c ≤ 3) || decide (8 ≤ c) && decide (c ≤ 11)

-- TAP instructions (R685-R689, R697)

/-- The ports are held back or let go as the current instruction changes (R689). -/
def setIr (v : BitVec 5) (d : Dev) : Dev :=
  let held := scanHoldsPorts d
  let d := { d with dbg := { d.dbg with ir := v } }
  if scanHoldsPorts d then closePorts d
  else if held && portsServed d then openPorts d
  else d

/-- An attachment begins (R687). -/
def attach (d : Dev) : Dev := if d.dbg.attached then d else debugEvent 1 { d with dbg := { d.dbg with attached := true } }

/-- The first boundary-scan instruction of an attachment leaves a record (R697). -/
def noteScan (d : Dev) : Dev :=
  if d.dbg.attached && !d.dbg.scanned then debugEvent 7 { d with dbg := { d.dbg with scanned := true } } else d

/-- A TAP instruction of the open states; elsewhere the bypass register is selected (R685). -/
def tapInstr (v : BitVec 5) (f : Dev → Dev) (s : State) : Out :=
  lift (fun d => if !tapLive d then d else if tapOpen d then setIr v (f d) else setIr 0x1F d) s

/-- EXTEST. -/
def execExtest (s : State) : Out := tapInstr 0x00 (fun d => noteScan (attach d)) s

/-- SAMPLE/PRELOAD: the pins are captured; no attachment begins (R687, R704). -/
def execSamplePreload (s : State) : Out :=
  tapInstr 0x01 (fun d => noteScan { d with dbg := { d.dbg with boundary := Config.pins d.now } }) s

/-- IDCODE, in every state. -/
def execIdcode (s : State) : Out := lift (fun d => if tapLive d then setIr 0x02 d else d) s

/-- CLAMP. -/
def execClamp (s : State) : Out := tapInstr 0x03 (fun d => noteScan (attach d)) s

/-- HIGHZ. -/
def execHighz (s : State) : Out := tapInstr 0x04 (fun d => noteScan (attach d)) s

/-- DBG_SELECT. -/
def execDbgSelect (s : State) : Out := tapInstr 0x10 attach s

/-- BYPASS, in every state; reserved instructions select bypass too. -/
def execBypass (s : State) : Out := lift (fun d => if tapLive d then setIr 0x1F d else d) s

/-- Cores that a debug request or the end of an attachment has let go take up their work. -/
def coresResume (d : Dev) : Dev := fillEngines 600 (fillLanes d)

/-- TEST_LOGIC_RESET (R687, R688, R702). -/
def execTestLogicReset (s : State) : Out :=
  lift (fun d => if tapLive d then coresResume (endAttachment d) else d) s

/-- The identification register (R703). -/
def idcodeReg (d : Dev) : BitVec 32 := if d.isD then 0x1C856AD7 else 0x14856AD7

-- The debug access register (R686, R690-R695, R701)

/-- What the debug access register captures: result, core, address, data. -/
def debugCapture (d : Dev) : BitVec 80 := d.dbg.result ++ d.dbg.echoCore ++ d.dbg.echoAddr ++ d.dbg.data

def result (v : BitVec 4) (d : Dev) : Dev := { d with dbg := { d.dbg with result := v } }

/-- A request on the debug access register: it needs DBG_SELECT; one shifted while another executes is discarded with PENDING; a
reserved core is refused (R701). -/
def debugReq (core : BitVec 4) (addr : BitVec 24) (f : Dev → Dev) (s : State) : Out :=
  lift (fun d =>
    if !(tapLive d && d.dbg.attached && d.dbg.ir == 0x10) then d
    else if d.dbg.held.isSome then result 1 d
    else
      let d := { d with dbg := { d.dbg with echoCore := core, echoAddr := addr } }
      if coreCodeOk core.toNat then f d else result 4 d) s

/-- Halt, refusal and resume records: at most 16 per attachment (R697). -/
def haltRecord (e : Nat) (d : Dev) : Dev :=
  if d.dbg.haltRecords < 16 then debugEvent e { d with dbg := { d.dbg with haltRecords := d.dbg.haltRecords + 1 } } else d

/-- DBG request NOP, or a reserved REQ value. -/
def execDbgNop (req core : BitVec 4) (s : State) : Out := debugReq core 0 (result (if req == 0 then 0 else 4)) s

def memKey (core : BitVec 4) (addr : BitVec 24) : Nat := core.toNat * 2 ^ 24 + addr.toNat

/-- PKT_WINDOW in PMC's view, the one address of the cores' maps that the spec names (R690 and its worked case). -/
def isPktWindow (core : BitVec 4) (addr : BitVec 24) : Bool := core == 2 && addr == 0x100

/-- The core reaches the word (R576, R686), and an ordinary read of it has a side effect (R690) (log 12). -/
def coreReaches (core : BitVec 4) (addr : BitVec 24) : Bool := isPktWindow core addr || Config.reaches core.toNat addr.toNat
def readHasEffect (core : BitVec 4) (addr : BitVec 24) : Bool := isPktWindow core addr || Config.hasSideEffect core.toNat addr.toNat

/-- A word in a core's view, read without side effect (log 12). -/
def memWord (d : Dev) (core : BitVec 4) (addr : BitVec 24) : Word :=
  if isPktWindow core addr then pktWindow d else ((d.dbg.memory.find? (fun x => x.1 == memKey core addr)).map (·.2)).getD (Config.peek core.toNat addr.toNat)

/-- DBG request READ, by the peek path. -/
def execDbgRead (core : BitVec 4) (addr : BitVec 24) (s : State) : Out :=
  debugReq core addr (fun d =>
    if !coreReaches core addr then result 5 d
    else
      let d := { d with dbg := { d.dbg with data := memWord d core addr } }
      if readHasEffect core addr then
        result 2 (if d.dbg.peeked then d else debugEvent 6 { d with dbg := { d.dbg with peeked := true } })
      else result 0 d) s

/-- DBG request WRITE. -/
def execDbgWrite (core : BitVec 4) (addr : BitVec 24) (data : Word) (s : State) : Out :=
  debugReq core addr (fun d =>
    if !coreReaches core addr then result 5 d
    else result 0 { d with dbg := { d.dbg with memory := putWord (memKey core addr) data d.dbg.memory } }) s

/-- A HALT of the core is permitted: SEC firmware in MANUFACTURE alone, the boot ROM in the states of R163 (R693). -/
def haltAllowed (d : Dev) (c : Nat) : Bool :=
  c != 1 || d.lifecycle = .manufacture || (!d.boot.running && (d.lifecycle = .blank || d.lifecycle = .returned))

def haltCore (c : Nat) (d : Dev) : Dev :=
  result 0 (if d.dbg.halted.contains c then d else haltRecord 3 { d with dbg := { d.dbg with halted := d.dbg.halted ++ [c] } })

/-- DBG request HALT: held while its core is inside an atomic region (R692). -/
def execDbgHalt (core : BitVec 4) (atomic : Bool) (s : State) : Out :=
  debugReq core 0 (fun d =>
    if !haltAllowed d core.toNat then result 4 (haltRecord 4 d)
    else if atomic then result 1 { d with dbg := { d.dbg with held := some core } }
    else haltCore core.toNat d) s

/-- DBG_HALT_DEFERRED: the region has ended within 50 us, or the request is refused. -/
def execDbgHaltDeferred (ended : Bool) (s : State) : Out :=
  lift (fun d =>
    match d.dbg.held with
    | none => d
    | some c =>
      let d := { d with dbg := { d.dbg with held := none } }
      if ended then haltCore c.toNat d else result 3 (haltRecord 4 d)) s

/-- DBG request RESUME. -/
def execDbgResume (core : BitVec 4) (s : State) : Out :=
  debugReq core 0 (fun d =>
    if d.dbg.halted.contains core.toNat then
      result 0 (haltRecord 5 (coresResume { d with dbg := { d.dbg with halted := d.dbg.halted.filter (· != core.toNat) } }))
    else result 0 d) s

/-- DBG request STEP: of a halted core; the instruction stepped is the core image's own (log 12). -/
def execDbgStep (core : BitVec 4) (s : State) : Out :=
  debugReq core 0 (fun d => result (if d.dbg.halted.contains core.toNat then 0 else 4) d) s

/-- The data of STATUS: the halted cores at the bits of their codes, and bit 12 for a peek of this attachment. -/
def statusData (d : Dev) : Word :=
  mkWord [(11, 0, (d.dbg.halted.map (fun c => 2 ^ c)).foldl (· + ·) 0), (12, 12, flag d.dbg.peeked)]

/-- DBG request STATUS. -/
def execDbgStatus (core : BitVec 4) (s : State) : Out :=
  debugReq core 0 (fun d => result 0 { d with dbg := { d.dbg with data := statusData d } }) s

end Sys2Proof.Machine
end

