-- ==== Sys2Proof/Machine/Succession.lean ====
section
/-! DEFINITION. Succession (15_service_life, R633-R650): class 0x11. What the spec leaves
open here is DEDUCED, log 56. -/
namespace Sys2Proof.Machine

-- Common checks

/-- Both roles stand in FIELD. -/
def needField (d : Dev) : Res Unit := do
  need (!(d.lifecycle = .scorched)) St.scorched
  need (!(d.lifecycle = .departed)) St.departed
  need (d.lifecycle = .field) St.policyRefused

/-- A succession begins only while no handover runs. -/
def needNoHandover (d : Dev) : Res Unit := need d.fw.handover.isNone St.busyRetry

/-- SEC can sign and draw. -/
def needSigner (d : Dev) : Res DeviceKey := do
  need (anyEngine d && d.sym.randomOk) St.internalFault
  match d.att.key with
  | some k => .ok k
  | none => rej St.policyRefused

/-- A P-384 signature of the device key over a prefix and words. -/
def signBlock (k : DeviceKey) (tag : List Byte) (ws : List Word) (d : Dev) : List Word × Dev :=
  let (sig, d) := makeSignature 2 k.ecPrivate (sha384 (tag ++ wordsBytes ws)) 0 d
  (fitW 16 (bytesWords sig), d)

/-- A block's signature under a P-384 key. -/
def blockSigned (key : List Byte) (tag : List Byte) (body sig : List Word) : Bool :=
  sigHolds 2 key (sha384 (tag ++ wordsBytes body)) (wordsBytes (fitW 16 sig)) [] 0

/-- "KV4856S" and a letter. -/
def tagS (b : Nat) : List Byte := tagKV4856 0x53 b

def formatOne : Word := mkWord [(47, 40, 1)]

/-- The succession state changed: the alert. -/
def setSucc (f : SuccState → SuccState) (d : Dev) : Dev := alertBit Alert.succession { d with succ := f d.succ }

/-- Device CA key: the subject key of certificate 2. -/
def caKey (d : Dev) : List Byte := certSubject (d.att.cert2.getD [])

/-- Certificate words of a reply: whole words, their byte length. -/
def certWords (c : List Byte) : List Word := bytesWords c

-- The package (R635); the order of its words is the model's (log 34)

def tenantEntry (d : Dev) (rec : List Word) : List Word :=
  let t : Byte := BitVec.ofNat 8 (recTenant rec)
  [mkWord [(47, 40, t.toNat), (39, 16, recEpoch rec)],
    mkWord [(47, 24, ((d.pat.high.find? (fun e => e.1 == t)).map (·.2)).getD 0), (15, 0, liveEpoch d t)]]

def slotEntry (d : Dev) (s : Slot) : List Word :=
  let m := (slotMaterial d s).getD []
  [s.handle, s.descriptor, mkWord [(47, 32, m.length), (31, 31, flag s.policy.isSome), (30, 30, flag s.nonce.isSome), (23, 0, s.epoch)],
    s.expiry] ++ bytesWords m ++ (s.policy.map (fitW 6)).getD []
    ++ (s.nonce.map (fun n => [n.fixed, word (max n.limit n.attempted)])).getD []

def counterEntry (c : Counter) : List Word := [mkWord [(47, 40, c.holder.toNat), (11, 0, c.index)], c.value]

/-- Persistent slots that succeed: all but recorder slot 0xF00. -/
def succSlots (d : Dev) : List Slot :=
  d.keys.slots.filter (fun s => isPersistent s.index && !s.writing && !(s.tenant == 1 && s.index == 0xF00))

def allocated (d : Dev) : List Counter := d.time.counters.filter (fun c => c.holder != 0xFF)

def packageWords (d : Dev) : List Word :=
  let img := d.pat.image.drop 8
  let ts := tenantTable d.pat.image
  let ss := succSlots d
  let cs := allocated d
  [mkWord [(47, 24, d.pat.gen), (23, 0, img.length)], mkWord [(47, 32, ts.length), (31, 16, ss.length), (15, 0, cs.length)],
    d.jrn.main.nextSeq - 1] ++ fitW 8 (bytesWords (journalHead d)) ++ img ++ ts.flatMap (tenantEntry d) ++ ss.flatMap (slotEntry d)
    ++ cs.flatMap counterEntry

/-- Reads n slot entries. -/
def readSlots : Nat → List Word → List Slot × List Word
  | 0, ws => ([], ws)
  | n + 1, ws =>
    let h := wd ws 0
    let m := fld (wd ws 2) 47 32
    let k := ceilDiv m 6
    let pol := flag (bitOf (wd ws 2) 31)
    let non := flag (bitOf (wd ws 2) 30)
    let desc := wd ws 1
    let at' := 4 + k + 6 * pol
    let s : Slot := { tenant := BitVec.ofNat 8 (fld h 47 40), index := fld h 39 28, gen := fld h 27 0, ktype := descType desc
                      usages := BitVec.ofNat 8 (descUsages desc), streamRel := bitOf desc 24
                      material := (wordsBytes (slice ws 4 k)).take m, descriptor := desc, epoch := fld (wd ws 2) 23 0, expiry := wd ws 3
                      policy := if pol = 1 then some (slice ws (4 + k) 6) else none
                      nonce := if non = 1 then some { fixed := wd ws at', next := (wd ws (at' + 1)).toNat
                                                      limit := (wd ws (at' + 1)).toNat } else none }
    let (rest, left) := readSlots n (ws.drop (at' + 2 * non))
    (s :: rest, left)

structure Package where
  gen : Nat := 0
  seq : Word := 0
  head : List Word := []
  image : List Word := []
  epochs : List (Byte × Nat × Nat) := []
  slots : List Slot := []
  counters : List Counter := []
  deriving DecidableEq, Repr

def readPackage (ws : List Word) : Package :=
  let n := fld (wd ws 0) 23 0
  let nt := fld (wd ws 1) 47 32
  let rest := ws.drop (11 + n)
  let (ss, tail) := readSlots (fld (wd ws 1) 31 16) (rest.drop (2 * nt))
  { gen := fld (wd ws 0) 47 24, seq := wd ws 2, head := slice ws 3 8, image := slice ws 11 n
    epochs := (chunksOf 2 nt rest).map (fun e => (BitVec.ofNat 8 (fld (wd e 0) 47 40), fld (wd e 1) 47 24, fld (wd e 1) 15 0))
    slots := ss
    counters := (chunksOf 2 (fld (wd ws 1) 15 0) tail).map (fun c =>
      { index := fld (wd c 0) 11 0, holder := BitVec.ofNat 8 (fld (wd c 0) 47 40), value := wd c 1 }) }

/-- K_pkg and K_T (R634). -/
def successionKeys (ss x : List Byte) (oSerial iSerial nonce : List Word) : List Byte :=
  kdf (sha256 (ss ++ x)) (ascii (kvDash ++ [0x53, 0x55, 0x43, 0x43, 0x45, 0x53, 0x53, 0x49, 0x4F, 0x4E]))
    (wordsBytes (fitW 2 oSerial ++ fitW 2 iSerial ++ fitW 8 nonce)) 512

def zeroIv : List Byte := List.replicate 12 0

-- The outgoing device up to the package

/-- SUCC_CHALLENGE. -/
def execSuccChallenge (r : Req) (s : State) : Out :=
  hostCmd 0x1101 r (fun _ => needAdmin r) (fun d => do
    needField d
    param (r.len == 0)
    need (d.succ.state == 0) St.busyRetry
    need d.sym.randomOk St.internalFault
    let (n, d) := drawWords 8 d
    okWords { d with succ := { d.succ with nonce := some n } } n) s

/-- The offer and statement that the incoming device sent hold up (R633): AUTH_FAIL for a signature, POLICY_REFUSED for the rest. -/
def checkOffer (d : Dev) (offer stmt : List Word) (cert : List Byte) : Res Unit := do
  let key := certSubject cert
  need (Config.certSigned cert (caKey d)) St.authFail
  need (blockSigned key (tagKV4856 0x41 0x54) (stmt.take 98) (slice stmt 98 16)) St.authFail
  let nonce := bytesWords (sha384 (tagS 0x46 ++ wordsBytes offer))
  need (slice stmt 10 8 == nonce && wd offer 0 == mkWord [(47, 40, 1), (39, 32, 3), (31, 24, d.orderByte)]) St.policyRefused
  need (slice offer 1 2 == slice stmt 1 2 && slice offer 3 2 == d.serial && d.succ.nonce == some (slice offer 5 8)) St.policyRefused
  need (fld (wd stmt 0) 39 32 == 3 && fld (wd stmt 0) 31 24 == d.orderByte) St.policyRefused
  need (decide (d.secVersion ≤ fld (wd stmt 4) 21 15) && fld (wd stmt 6) 47 46 == 0) St.policyRefused
  need (p384.pointOk (wordsBytes (slice offer 13 16)) && kemKeyOk ((wordsBytes (slice offer 29 198)).take 1184)) St.policyRefused

/-- SUCC_BEGIN (R633-R636). -/
def execSuccBegin (r : Req) (s : State) : Out :=
  hostCmd 0x1103 r (fun _ => needAdmin r) (fun d => do
    needField d
    let cert := r.bytesFrom 341 (r.len - 6 * 341)
    param (decide (6 * 341 < r.len) && decide (r.len ≤ 6 * 341 + 2052))
    need (d.succ.state == 0 && !commitPending d && d.pat.old.isNone) St.busyRetry
    needNoHandover d
    let k ← needSigner d
    let offer := r.words.take 227
    checkOffer d offer (slice r.words 227 114) (cert.take (derLength cert))
    if !d.nvm.writes.isEmpty || !engineIdle d then .ok (d, .wait)
    else do
      let pkg := packageWords d
      param (decide (pkg.length ≤ 20480))
      let (m, d) := drawBytes 32 d
      let (ct, ss) := kemEncaps ((wordsBytes (slice offer 29 198)).take 1184) m
      let (b, d) := drawBytes 56 d
      let eph := scalarFrom 0x11 b
      let x := (agree 2 eph (wordsBytes (slice offer 13 16))).getD []
      let keys := successionKeys ss x d.serial (slice offer 1 2) (slice offer 5 8)
      let e := gcmEnc (keys.take 32) zeroIv [] (wordsBytes pkg)
      let cipher := bytesWords e.1
      let digest := sha384 e.1
      let body := [formatOne] ++ d.serial ++ fitW 182 (bytesWords ct) ++ fitW 16 (bytesWords (publicKey 0x11 eph))
        ++ [word cipher.length] ++ bytesWords digest
      let (sig, d) := signBlock k (tagS 0x42) body d
      let d := setSucc (fun x => { x with
        state := 1, nonce := none, began := d.now, peer := slice offer 1 2, peerKey := certSubject (cert.take (derLength cert))
        cipher := cipher, tag := fitW 3 (bytesWords e.2), kt := keys.drop 32, digest := digest, transitLive := true, committing := false }) d
      let own := d.att.cert0.getD []
      okBytes d (body ++ sig ++ certWords own) (6 * 226 + own.length)) s

/-- The outgoing role. -/
def needOutgoing (d : Dev) : Res Unit := need (d.succ.state == 1) St.policyRefused

/-- Payload words a reply to the command can carry on its port. -/
def replyRoom (r : Req) : Nat := if r.origin = .port .b then Port.b.payloadMax / 6 else Port.a.payloadMax / 6

/-- SUCC_PACKAGE_READ: the package words, then the tag. -/
def execSuccPackageRead (r : Req) (s : State) : Out :=
  hostCmd 0x1104 r (fun _ => needAdmin r) (fun d => do
    needOutgoing d
    let all := d.succ.cipher ++ d.succ.tag
    param (r.sized 1 && decide (r.f 0 31 0 + r.f 0 47 32 ≤ all.length) && decide (r.f 0 47 32 ≤ replyRoom r))
    okWords d (slice all (r.f 0 31 0) (r.f 0 47 32))) s

-- Transit blobs (R637, R643)

/-- The tenant transit key. -/
def transitKey (d : Dev) (t : Byte) : List Byte :=
  kdf d.succ.kt (ascii (kvDash ++ [0x54, 0x52, 0x41, 0x4E, 0x53, 0x49, 0x54])) (wordBytes (mkWord [(47, 40, 4), (39, 32, t.toNat)])) 256

/-- One flacon into a transit blob. -/
def toTransit (r : Req) (f : List Word) (d : Dev) : Res (List Word × Dev) := do
  let (m, d) ← unwrapFlacon r f d
  .ok (sealFlacon (transitKey d r.tenant) (setFld (setFld (wd f 0) 47 40 0x81) 15 0 0 :: slice f 1 5) m d)

/-- One transit blob into a flacon under the current flacon epoch. -/
def fromTransit (r : Req) (f : List Word) (d : Dev) : Res (List Word × Dev) := do
  param (fld (wd f 0) 39 32 == r.tenant.toNat && f.length == flaconLen f)
  let d ← needHeart r.tenant r.gen d
  need (headerOk 0x81 f && fld (wd f 0) 15 0 == 0) St.policyRefused 7
  match openFlacon (transitKey d r.tenant) f with
  | none => rej St.policyRefused 7
  | some m =>
    let e := liveEpoch d r.tenant
    .ok (sealFlacon (flaconKeyOf d r.tenant (tenantEpoch d r.gen r.tenant) e) (setFld (setFld (wd f 0) 47 40 1) 15 0 e :: slice f 1 5) m d)

/-- Takes n flacons or blobs in turn: a status word for each, then the results. -/
def convertAll (f : List Word → Dev → Res (List Word × Dev)) : Nat → List Word → Dev → List (Word × List Word) × Dev
  | 0, _, d => ([], d)
  | n + 1, ws, d =>
    let len := flaconLen ws
    let (out, d) := match f (ws.take len) d with
      | .error e => ((mkWord [(47, 40, e.status.toNat), (39, 32, e.reason)], []), keepHeart e d)
      | .ok (x, d) => ((mkWord [(47, 40, St.ok.toNat), (15, 0, x.length)], x), d)
    let (rest, d) := convertAll f n (ws.drop len) d
    (out :: rest, d)

/-- The shared form of SUCCESSION_TRANSIT and SUCCESSION_INHERIT. -/
def convertBody (r : Req) (f : List Word → Dev → Res (List Word × Dev)) (d : Dev) : Res (Dev × Done) := do
  let n := r.f 0 7 0
  param (r.sizedMin 1 && onlyBits (r.w 0) [(7, 0)] && decide (1 ≤ n) && decide (n ≤ 16))
  need d.sym.randomOk St.internalFault
  let (outs, d) := convertAll f n (r.words.drop 1) d
  okWords d (outs.map (·.1) ++ outs.flatMap (·.2))

/-- SUCCESSION_TRANSIT. -/
def execSuccessionTransit (r : Req) (s : State) : Out :=
  hostCmd 0x1110 r (fun _ => needTenant r) (fun d => do
    needOutgoing d
    convertBody r (toTransit r) d) s

/-- SUCCESSION_INHERIT: from activation until SUCC_CLOSE. -/
def execSuccessionInherit (r : Req) (s : State) : Out :=
  hostCmd 0x1111 r (fun _ => needTenant r) (fun d => do
    need (d.succ.transitLive && d.succ.state == 0) St.policyRefused
    convertBody r (fromTransit r) d) s

/-- SUCC_CLOSE: the transit key is zeroised. -/
def execSuccClose (r : Req) (s : State) : Out :=
  hostCmd 0x110B r (fun _ => needAdmin r) (fun d => do
    need (d.succ.transitLive && d.succ.state == 0) St.policyRefused
    param (r.len == 0)
    okNone { d with succ := { d.succ with kt := [], transitLive := false } }) s

-- The incoming device up to the pending copy (R638)

/-- Types of the records of a segment body, by their LENGTH fields. -/
def bodyTypes : Nat → List Word → List Nat
  | 0, _ => []
  | _, [] => []
  | n + 1, w :: ws => fld w 47 40 :: bodyTypes n (ws.drop (max 1 (fld w 39 30) - 1))

/-- The main stream holds a legal-activity record; of folded segments only the last ACTIVITY values are known. -/
def hasLegal (d : Dev) : Bool :=
  (d.jrn.segments.any (fun s => s.main && (bodyTypes 752 s.body).any (fun t => t / 16 == 2)))
    || ((d.jrn.main.cur.map (fun o => (bodyTypes 752 o.body).any (fun t => t / 16 == 2))).getD false)
    || d.jrn.driver.isSome || d.jrn.codriver.isSome

/-- The incoming device is blank of tenant state (R638). -/
def freshDevice (d : Dev) : Bool :=
  (tenantTable d.pat.image).all (fun x => decide (recTenant x ≤ 1)) && (succSlots d).isEmpty && (allocated d).isEmpty && !hasLegal d

/-- SUCC_OFFER. -/
def execSuccOffer (r : Req) (s : State) : Out :=
  hostCmd 0x1102 r (fun _ => needAdmin r) (fun d => do
    needField d
    need (!d.identityMarginal) St.fuseMarginal
    param (r.sized 10)
    need (d.succ.state != 1) St.busyRetry
    needNoHandover d
    need (freshDevice d) St.policyRefused
    let k ← needSigner d
    match d.att.cert0 with
    | none => rej St.policyRefused
    | some cert => if !engineIdle d then .ok (d, .wait) else
      let (b, d) := drawBytes 56 d
      let (seed, d) := drawBytes 64 d
      let eph := scalarFrom 0x11 b
      let offer := [mkWord [(47, 40, 1), (39, 32, d.lifecycle.code), (31, 24, d.orderByte)]] ++ d.serial ++ slice r.words 8 2
        ++ r.words.take 8 ++ fitW 16 (bytesWords (publicKey 0x11 eph)) ++ fitW 198 (bytesWords (publicKey 0x21 seed))
      let body := statementBody d false (bytesWords (sha384 (tagS 0x46 ++ wordsBytes offer)))
      let (sig, d) := signBlock k (tagKV4856 0x41 0x54) body d
      let d := setSucc (fun x => { x with
        state := 2, nonce := some (r.words.take 8), began := d.now, peer := slice r.words 8 2, peerKey := [], ephEc := eph, ephKem := seed
        cipher := [], tag := [], kt := [], receive := [], pending := none, transitLive := false }) d
      okBytes d (offer ++ body ++ sig ++ certWords cert) (6 * 341 + cert.length)) s

/-- What SUCC_RECEIVE finds in the whole stream: the package's words and its digest, K_T and O's key, or none. -/
def openPackage (d : Dev) (ws : List Word) : Option (List Word × List Byte × List Byte × List Byte) :=
  let hand := ws.take 226
  let n := (wd hand 201).toNat
  let raw := wordsBytes (slice ws 226 (ws.length - 229 - n))
  let cert := raw.take (derLength raw)
  let key := certSubject cert
  let cipher := slice ws (ws.length - 3 - n) n
  let tag := (wordsBytes (ws.drop (ws.length - 3))).take 16
  let peerPoint := wordsBytes (slice hand 185 16)
  let ok := decide (229 + n ≤ ws.length) && wd hand 0 == formatOne && slice hand 1 2 == d.succ.peer && Config.certSigned cert (caKey d)
    && blockSigned key (tagS 0x42) (hand.take 210) (slice hand 210 16) && p384.pointOk peerPoint
    && slice hand 202 8 == bytesWords (sha384 (wordsBytes cipher))
  if !ok then none
  else
    let ss := kemDecaps d.succ.ephKem ((wordsBytes (slice hand 3 182)).take 1088)
    let x := (agree 2 d.succ.ephEc peerPoint).getD []
    let keys := successionKeys ss x d.succ.peer d.serial (d.succ.nonce.getD [])
    match gcmDec (keys.take 32) zeroIv [] (wordsBytes cipher) tag with
    | none => none
    | some plain => some (bytesWords plain, sha384 (wordsBytes cipher), keys.drop 32, key)

/-- The pending copy as the key store keeps it: under I's store key, its digest as additional data (R638; DESIGN CHOICE, log 78). -/
def sealPending (plain : List Word) (digest : List Byte) (d : Dev) : PendingCopy × Dev :=
  let (iv, d) := drawBytes 12 d
  let e := gcmEnc (storeKeyOf d) iv digest (wordsBytes plain)
  let p := readPackage plain
  ({ sealed := { iv := iv, cipher := e.1, tag := e.2 }, words := plain.length, digest := digest, seqAtFreeze := p.seq
     headAtFreeze := wordsBytes p.head }, d)

/-- The package of a pending copy; none while the store key cannot be had. -/
def openPending (d : Dev) (c : PendingCopy) : Res Package :=
  match if baseReachable d then gcmDec (storeKeyOf d) c.sealed.iv c.digest c.sealed.cipher c.sealed.tag else none with
  | some plain => .ok (readPackage (bytesWords plain))
  | none => rej St.internalFault

/-- Most words the stream of SUCC_RECEIVE can have: handoff, certificate 0, package and tag. -/
def receiveLimit : Nat := 226 + 342 + 20480 + 3

/-- The incoming role, before a package is held. -/
def needIncoming (d : Dev) : Res Unit := need (d.succ.state == 2) St.policyRefused

/-- SUCC_RECEIVE; the offset is read from [23:0], which the last flag of the table leaves it (log 33). -/
def execSuccReceive (r : Req) (s : State) : Out :=
  hostCmd 0x1105 r (fun _ => needAdmin r) (fun d => do
    needIncoming d
    param (r.sized r.words.length && r.sizedMin 1 && onlyBits (r.w 0) [(24, 0)])
    need d.succ.pending.isNone St.policyRefused
    let old := if r.f 0 23 0 = 0 then [] else d.succ.receive
    let ws := old ++ r.words.drop 1
    param (r.f 0 23 0 == old.length && decide (ws.length ≤ receiveLimit))
    if !bitOf (r.w 0) 24 then okNone { d with succ := { d.succ with receive := ws } }
    else do
      let k ← needSigner d
      need (baseReachable d) St.internalFault
      untilEngine d (match openPackage d ws with
        | none => .ok ({ d with succ := { d.succ with receive := [] } }, .reply St.authFail [] 0)
        | some (plain, digest, kt, key) =>
          let (c, d) := sealPending plain digest d
          let body := [formatOne] ++ d.serial ++ d.succ.peer ++ bytesWords digest
          let (sig, d) := signBlock k (tagS 0x41) body d
          okWords { d with succ := { d.succ with receive := [], pending := some c, kt := kt, peerKey := key } } (body ++ sig))) s

-- SUCC_COMMIT and the departure block (R639-R641, R647)

/-- X0 to X38, signed now. -/
def departureBlock (k : DeviceKey) (d : Dev) : List Word × Dev :=
  let body := [formatOne] ++ d.serial ++ fitW 2 d.succ.peer ++ [d.succ.sealSeq] ++ fitW 8 (bytesWords d.succ.sealHead)
    ++ fitW 8 (bytesWords d.succ.digest) ++ [d.time.tick]
  let (sig, d) := signBlock k (tagS 0x44) body d
  (body ++ sig, d)

/-- The acknowledgement is I's, for this package. -/
def ackOk (d : Dev) (ws : List Word) : Bool :=
  wd ws 0 == formatOne && slice ws 1 2 == d.succ.peer && slice ws 3 2 == d.serial && slice ws 5 8 == bytesWords d.succ.digest
    && blockSigned d.succ.peerKey (tagS 0x41) (ws.take 13) (slice ws 13 16)

/-- Steps 4 and 5 of R639: group 4, then the rest of the entry actions and the completion record. -/
def commitDeparture (d : Dev) : Dev :=
  let d := closeTransition .departed 1 (remeasure (entryActions .departed (programState .departed .programmed d)))
  { d with succ := { d.succ with cipher := [], tag := [], kt := [], transitLive := false, committing := false } }

/-- SUCC_COMMIT. A group that still reads unblown stops the step and leaves the transition open (R120, R129). -/
def execSuccCommit (r : Req) (fuse : FuseEnd) (s : State) : Out :=
  settleCmd 0x1106 r (fun _ => needAdmin r) (fun d => do
    needOutgoing d
    param (r.sized 29)
    need (d.jrn.summary.isEmpty && fuseWindow d && !d.succ.committing) St.busyRetry
    let k ← needSigner d
    need (ackOk d r.words) St.authFail
    if !engineIdle d then .ok (d, .wait) else
    let d := openTransition .departed { d with succ := { d.succ with committing := true } }
    let d := departEntry d
    if fuse ≠ .programmed then fuseStopped fuse (programState .departed fuse d)
    else
      let (x, d) := departureBlock k (commitDeparture d)
      okWords d x) s

/-- SUCC_DEPARTURE_READ. -/
def execSuccDepartureRead (r : Req) (s : State) : Out :=
  hostCmd 0x1107 r (fun _ => needAdmin r) (fun d => do
    need (d.lifecycle = .departed) St.policyRefused
    param (r.len == 0)
    let k ← needSigner d
    if !engineIdle d then .ok (d, .wait) else
    let (x, d) := departureBlock k d
    okWords d x) s

-- Activation and release (R642, R644, R650)

/-- Steps 1 and 2: LINEAGE as the first record of the next main segment; a hem that the close left due follows it. -/
def writeLineage (pseq : Word) (head : List Word) (d : Dev) : Dev :=
  let d := openSegment true (closeSegment true d)
  let peer := (wd d.succ.peer 0).toNat + (wd d.succ.peer 1).toNat * 2 ^ 48
  writeDueHem (secRecordAt 0x62 (stamp d [Int.ofNat peer, Int.ofNat pseq.toNat]) (.bits (wordBits (fitW 8 head))) d)

/-- Steps 3 and 4: the package pattern, committed and switched. -/
def adoptPackage (p : Package) (d : Dev) : Dev :=
  let gen := max (d.pat.highest + 1) (p.gen + 1)
  let prev := d.pat.gen
  let img := setHeader gen prev gen 0 (List.replicate 8 0 ++ p.image)
  let inB := targetBank d
  let b : Bank := { k0 := some true, gen := gen, image := img, digest := patternDigest img, k1 := d.now }
  let d := adopt img gen d.now inB (setBank inB b { d with pat := { d.pat with highest := gen } })
  let d := { d with
    pat := { d.pat with high := raiseHigh (p.epochs.map (fun e => (e.1, e.2.1))) d.pat.high }
    keys := { d.keys with epochs := p.epochs.map (fun e => (e.1, e.2.2)) } }
  attnBoth Attn.pattern (patternRecord gen prev 0 d.now b.digest (logAt Core.sch 23 (word gen) (word d.now) false d))

/-- Steps 5 to 7: the slots go into I's key store; a counter that stands higher on I keeps its value (R100, R642). -/
def loadPackage (p : Package) (d : Dev) : Dev :=
  let top := (p.slots.map (·.gen)).foldl max 0
  let d := p.slots.foldl (fun d x => let y := sealSlot x d; { y.2 with keys := { y.2.keys with slots := y.2.keys.slots ++ [y.1] } }) d
  let d := { d with keys := { d.keys with
    perGen := if d.keys.perGen.toNat ≤ top then BitVec.ofNat 28 (min (2 ^ 28 - 1) (top + 1)) else d.keys.perGen } }
  let keep (d : Dev) (c : Counter) : Counter :=
    let v := (counterAt d.time.counters c.index).value
    if c.value.toNat < v.toNat then { c with value := v } else c
  let d := p.counters.foldl (fun d c => d.putCounter (keep d c)) d
  setSucc (fun x => { x with state := 0, nonce := none, ephEc := [], ephKem := [], pending := none, transitLive := true }) d

def activate (p : Package) (pseq : Word) (head : List Word) (d : Dev) : Dev := loadPackage p (adoptPackage p (writeLineage pseq head d))

/-- SUCC_ACTIVATE. -/
def execSuccActivate (r : Req) (s : State) : Out :=
  settleCmd 0x1108 r (fun _ => needAdmin r) (fun d => do
    needIncoming d
    param (r.sized 39)
    match d.succ.pending with
    | none => rej St.policyRefused
    | some c => untilEngine d (do
      let ws := r.words
      need (wd ws 0 == formatOne && slice ws 1 2 == d.succ.peer && slice ws 3 2 == d.serial && slice ws 14 8 == bytesWords c.digest
        && blockSigned d.succ.peerKey (tagS 0x44) (ws.take 23) (slice ws 23 16)) St.authFail
      let p ← openPending d c
      let d := activate p (wd ws 5) (slice ws 6 8) d
      okWords d [mkWord [(47, 24, d.pat.gen)]])) s

/-- The owner's session-authority key of the pending pattern signed the release block. -/
def releaseSigned (img : List Word) (ws : List Word) : Bool :=
  match tenantRec img 0 with
  | none => false
  | some rec =>
    let kt := recKeyType rec
    let sn := if kt == 2 then 96 else 64
    let msg := tagS 0x4C ++ wordsBytes (ws.take 6)
    let block := wordsBytes (fitW 16 (slice ws 6 16))
    kt != 0 && sigHolds kt ((wordsBytes (rec.drop 4)).take (authorityBytes kt))
      (if kt == 1 then sha256 msg else if kt == 2 then sha384 msg else msg) (block.take sn) [] 0 && (block.drop sn).all (· == 0)

/-- SUCC_RELEASE. -/
def execSuccRelease (r : Req) (s : State) : Out :=
  settleCmd 0x1109 r (fun _ => needAdmin r) (fun d => do
    needIncoming d
    param (r.sized 22)
    match d.succ.pending with
    | none => rej St.policyRefused
    | some c => untilEngine d (do
      let ws := r.words
      let p ← openPending d c
      need (wd ws 0 == formatOne && slice ws 1 2 == d.succ.peer && slice ws 3 2 == d.serial
        && releaseSigned (List.replicate 8 0 ++ p.image) ws) St.authFail
      let d := activate p c.seqAtFreeze (bytesWords c.headAtFreeze) d
      okWords d [mkWord [(47, 24, d.pat.gen)]])) s

-- Ends and status

/-- The incoming device discards its pending copy. -/
def discardPending (d : Dev) : Dev :=
  setSucc (fun x => { x with state := 0, nonce := none, peer := [0, 0], peerKey := [], ephEc := [], ephKem := [], kt := [], receive := [], pending := none }) d

/-- SUCC_ABORT (R648). -/
def execSuccAbort (r : Req) (s : State) : Out :=
  settleCmd 0x110A r (fun _ => needAdmin r) (fun d => do
    need ((d.succ.state == 1 && !d.succ.committing) || d.succ.state == 2) St.policyRefused
    param (r.len == 0)
    okNone (if d.succ.state = 1 then abortOutgoing d else discardPending d)) s

/-- SUCC_STATUS. -/
def execSuccStatus (r : Req) (s : State) : Out :=
  hostCmd 0x1112 r (fun _ => needAdmin r) (fun d => do
    param (r.len == 0)
    okWords d [mkWord [(1, 0, d.succ.state)],
      word (if d.succ.state = 1 then d.succ.cipher.length else ((d.succ.pending.map (·.words)).getD 0)),
      mkWord [(0, 0, flag d.succ.transitLive)]]) s

/-- SUCCESSION_TIMEOUT (R646). -/
def execSuccessionTimeout (s : State) : Out :=
  liftR (fun d =>
    if d.succ.state = 1 && !d.succ.committing && decide (d.succ.began + 2 ^ 24 ≤ d.now) then settlePower (abortOutgoing d) else (d, false)) s

end Sys2Proof.Machine
end

