-- ==== Sys2Proof/Machine/Dispatch.lean ====
section
/-! DEFINITION. One arm per command: a direct call of its meaning. -/
namespace Sys2Proof.Machine

def exec (i : Instr) (s : State) : Host.Outcome State Fault Refusal :=
  match i with
  | .linkInfo r => Sys2Proof.Machine.execLinkInfo r s
  | .linkPing r => Sys2Proof.Machine.execLinkPing r s
  | .sessionOpen r => Sys2Proof.Machine.execSessionOpen r s
  | .sessionClose r => Sys2Proof.Machine.execSessionClose r s
  | .sessionStatus r => Sys2Proof.Machine.execSessionStatus r s
  | .sessionRevoke r => Sys2Proof.Machine.execSessionRevoke r s
  | .tenantWrite r => Sys2Proof.Machine.execTenantWrite r s
  | .tenantRemove r => Sys2Proof.Machine.execTenantRemove r s
  | .tenantRead r => Sys2Proof.Machine.execTenantRead r s
  | .tenantList r => Sys2Proof.Machine.execTenantList r s
  | .tenantStats r => Sys2Proof.Machine.execTenantStats r s
  | .engineOccupancy r => Sys2Proof.Machine.execEngineOccupancy r s
  | .lifecycleRead r => Sys2Proof.Machine.execLifecycleRead r s
  | .lifecycleAdvance r fuse => Sys2Proof.Machine.execLifecycleAdvance r fuse s
  | .optionProgram r fails => Sys2Proof.Machine.execOptionProgram r fails s
  | .keyDerive r => Sys2Proof.Machine.execKeyDerive r s
  | .flaconLoad r => Sys2Proof.Machine.execFlaconLoad r s
  | .flaconCreate r => Sys2Proof.Machine.execFlaconCreate r s
  | .flaconImport r => Sys2Proof.Machine.execFlaconImport r s
  | .flaconRewrap r => Sys2Proof.Machine.execFlaconRewrap r s
  | .flaconRewrapChunk r => Sys2Proof.Machine.execFlaconRewrapChunk r s
  | .flaconEpochAdvance r => Sys2Proof.Machine.execFlaconEpochAdvance r s
  | .keyPersist r => Sys2Proof.Machine.execKeyPersist r s
  | .keyErase r => Sys2Proof.Machine.execKeyErase r s
  | .keyInfo r => Sys2Proof.Machine.execKeyInfo r s
  | .keyList r => Sys2Proof.Machine.execKeyList r s
  | .keyPublic r => Sys2Proof.Machine.execKeyPublic r s
  | .cipherEncrypt r => Sys2Proof.Machine.execCipherEncrypt r s
  | .cipherDecrypt r => Sys2Proof.Machine.execCipherDecrypt r s
  | .streamOpen r => Sys2Proof.Machine.execStreamOpen r s
  | .streamChunk r => Sys2Proof.Machine.execStreamChunk r s
  | .hash r => Sys2Proof.Machine.execHash r s
  | .hashStreamOpen r => Sys2Proof.Machine.execHashStreamOpen r s
  | .hashStreamChunk r => Sys2Proof.Machine.execHashStreamChunk r s
  | .pkSign r => Sys2Proof.Machine.execPkSign r s
  | .pkVerify r => Sys2Proof.Machine.execPkVerify r s
  | .pkAgree r => Sys2Proof.Machine.execPkAgree r s
  | .pkKemPublic r => Sys2Proof.Machine.execPkKemPublic r s
  | .rsaKeygen r => Sys2Proof.Machine.execRsaKeygen r s
  | .rsaKeygenResult r => Sys2Proof.Machine.execRsaKeygenResult r s
  | .pkInfo r => Sys2Proof.Machine.execPkInfo r s
  | .journalAppend r => Sys2Proof.Machine.execJournalAppend r s
  | .journalStatus r => Sys2Proof.Machine.execJournalStatus r s
  | .journalHead r => Sys2Proof.Machine.execJournalHead r s
  | .journalExport r => Sys2Proof.Machine.execJournalExport r s
  | .exportChunk r => Sys2Proof.Machine.execExportChunk r s
  | .segmentRead r => Sys2Proof.Machine.execSegmentRead r s
  | .receiptSubmit r => Sys2Proof.Machine.execReceiptSubmit r s
  | .traceRead r => Sys2Proof.Machine.execTraceRead r s
  | .timeRead r => Sys2Proof.Machine.execTimeRead r s
  | .timeAdjust r => Sys2Proof.Machine.execTimeAdjust r s
  | .timeAuthChallenge r => Sys2Proof.Machine.execTimeAuthChallenge r s
  | .timeAuthAdjust r => Sys2Proof.Machine.execTimeAuthAdjust r s
  | .timeConfirm r => Sys2Proof.Machine.execTimeConfirm r s
  | .timeAlarmSet r => Sys2Proof.Machine.execTimeAlarmSet r s
  | .distanceRead r => Sys2Proof.Machine.execDistanceRead r s
  | .gnssFeed r => Sys2Proof.Machine.execGnssFeed r s
  | .counterAllocate r => Sys2Proof.Machine.execCounterAllocate r s
  | .counterRelease r => Sys2Proof.Machine.execCounterRelease r s
  | .counterRead r => Sys2Proof.Machine.execCounterRead r s
  | .counterIncrement r => Sys2Proof.Machine.execCounterIncrement r s
  | .tamperStatus r => Sys2Proof.Machine.execTamperStatus r s
  | .tamperSources r => Sys2Proof.Machine.execTamperSources r s
  | .tamperInject r => Sys2Proof.Machine.execTamperInject r s
  | .attestCert r => Sys2Proof.Machine.execAttestCert r s
  | .attestStatement r outputOk => Sys2Proof.Machine.execAttestStatement r outputOk s
  | .challengeRespond r => Sys2Proof.Machine.execChallengeRespond r s
  | .attestKeygen r => Sys2Proof.Machine.execAttestKeygen r s
  | .attestCertWrite r => Sys2Proof.Machine.execAttestCertWrite r s
  | .verifierSecretExport r => Sys2Proof.Machine.execVerifierSecretExport r s
  | .patternRead r => Sys2Proof.Machine.execPatternRead r s
  | .patternWrite r => Sys2Proof.Machine.execPatternWrite r s
  | .patternStore r => Sys2Proof.Machine.execPatternStore r s
  | .patternRevert r => Sys2Proof.Machine.execPatternRevert r s
  | .patternDiscard r => Sys2Proof.Machine.execPatternDiscard r s
  | .patternInfo r => Sys2Proof.Machine.execPatternInfo r s
  | .bootPush r => Sys2Proof.Machine.execBootPush r s
  | .fwStageOpen r => Sys2Proof.Machine.execFwStageOpen r s
  | .fwStageChunk r flashOk => Sys2Proof.Machine.execFwStageChunk r flashOk s
  | .fwLoad r => Sys2Proof.Machine.execFwLoad r s
  | .fwHandover r => Sys2Proof.Machine.execFwHandover r s
  | .fwVersionCommit r fuse => Sys2Proof.Machine.execFwVersionCommit r fuse s
  | .fwStatus r => Sys2Proof.Machine.execFwStatus r s
  | .fwRestart r => Sys2Proof.Machine.execFwRestart r s
  | .logRead r => Sys2Proof.Machine.execLogRead r s
  | .longStatus r => Sys2Proof.Machine.execLongStatus r s
  | .longSuspend r => Sys2Proof.Machine.execLongSuspend r s
  | .longResume r => Sys2Proof.Machine.execLongResume r s
  | .longCancel r => Sys2Proof.Machine.execLongCancel r s
  | .longRelease r => Sys2Proof.Machine.execLongRelease r s
  | .longList r => Sys2Proof.Machine.execLongList r s
  | .appletLoad r => Sys2Proof.Machine.execAppletLoad r s
  | .appletUnload r => Sys2Proof.Machine.execAppletUnload r s
  | .appletCall r => Sys2Proof.Machine.execAppletCall r s
  | .appletResult r => Sys2Proof.Machine.execAppletResult r s
  | .appletTrigger r => Sys2Proof.Machine.execAppletTrigger r s
  | .appletStatus r => Sys2Proof.Machine.execAppletStatus r s
  | .appletList r => Sys2Proof.Machine.execAppletList r s
  | .mgmtInfo r => Sys2Proof.Machine.execMgmtInfo r s
  | .mgmtSensors r => Sys2Proof.Machine.execMgmtSensors r s
  | .mgmtHealthRead r => Sys2Proof.Machine.execMgmtHealthRead r s
  | .mgmtLogRead r => Sys2Proof.Machine.execMgmtLogRead r s
  | .mgmtPower r => Sys2Proof.Machine.execMgmtPower r s
  | .mgmtAddress r => Sys2Proof.Machine.execMgmtAddress r s
  | .mgmtFence r => Sys2Proof.Machine.execMgmtFence r s
  | .mgmtUnfence r passed => Sys2Proof.Machine.execMgmtUnfence r passed s
  | .mgmtBundlePush r => Sys2Proof.Machine.execMgmtBundlePush r s
  | .mgmtRestart r => Sys2Proof.Machine.execMgmtRestart r s
  | .succChallenge r => Sys2Proof.Machine.execSuccChallenge r s
  | .succOffer r => Sys2Proof.Machine.execSuccOffer r s
  | .succBegin r => Sys2Proof.Machine.execSuccBegin r s
  | .succPackageRead r => Sys2Proof.Machine.execSuccPackageRead r s
  | .succReceive r => Sys2Proof.Machine.execSuccReceive r s
  | .succCommit r fuse => Sys2Proof.Machine.execSuccCommit r fuse s
  | .succDepartureRead r => Sys2Proof.Machine.execSuccDepartureRead r s
  | .succActivate r => Sys2Proof.Machine.execSuccActivate r s
  | .succRelease r => Sys2Proof.Machine.execSuccRelease r s
  | .succAbort r => Sys2Proof.Machine.execSuccAbort r s
  | .succClose r => Sys2Proof.Machine.execSuccClose r s
  | .successionTransit r => Sys2Proof.Machine.execSuccessionTransit r s
  | .successionInherit r => Sys2Proof.Machine.execSuccessionInherit r s
  | .succStatus r => Sys2Proof.Machine.execSuccStatus r s
  | .requestFrame p offset words => Sys2Proof.Machine.execRequestFrame p offset words s
  | .replyRelease p tag => Sys2Proof.Machine.execReplyRelease p tag s
  | .abortRx p => Sys2Proof.Machine.execAbortRx p s
  | .regWrite f index value => Sys2Proof.Machine.execRegWrite f index value s
  | .partialFrameTimeout p => Sys2Proof.Machine.execPartialFrameTimeout p s
  | .replyEnqueue p => Sys2Proof.Machine.execReplyEnqueue p s
  | .refusalDelivery id armed => Sys2Proof.Machine.execRefusalDelivery id armed s
  | .sessionOpenReply id => Sys2Proof.Machine.execSessionOpenReply id s
  | .challengeReply id => Sys2Proof.Machine.execChallengeReply id s
  | .submit => Sys2Proof.Machine.execSubmit s
  | .abort => Sys2Proof.Machine.execAbort s
  | .release => Sys2Proof.Machine.execRelease s
  | .pktWindowWrite value => Sys2Proof.Machine.execPktWindowWrite value s
  | .pktWindowRead => Sys2Proof.Machine.execPktWindowRead s
  | .mgmtTransactionTimeout => Sys2Proof.Machine.execMgmtTransactionTimeout s
  | .mgmtLockoutEnd => Sys2Proof.Machine.execMgmtLockoutEnd s
  | .powerUp kept => Sys2Proof.Machine.execPowerUp kept s
  | .crystalStartTimeout => Sys2Proof.Machine.execCrystalStartTimeout s
  | .bootRomFlow b => Sys2Proof.Machine.execBootRomFlow b s
  | .waitHostTimeout => Sys2Proof.Machine.execWaitHostTimeout s
  | .factoryTestCommand => Sys2Proof.Machine.execFactoryTestCommand s
  | .resetPin ns taken => Sys2Proof.Machine.execResetPin ns taken s
  | .pfNWarning ns taken => Sys2Proof.Machine.execPfNWarning ns taken s
  | .pfNResume => Sys2Proof.Machine.execPfNResume s
  | .backupEntry warned inPhase2 => Sys2Proof.Machine.execBackupEntry warned inPhase2 s
  | .vddioRise g mv => Sys2Proof.Machine.execVddioRise g mv s
  | .vddioLoss g => Sys2Proof.Machine.execVddioLoss g s
  | .idleEntry => Sys2Proof.Machine.execIdleEntry s
  | .idleStandbyExpiry => Sys2Proof.Machine.execIdleStandbyExpiry s
  | .hibernateWake w => Sys2Proof.Machine.execHibernateWake w s
  | .thermalThrottle temp => Sys2Proof.Machine.execThermalThrottle temp s
  | .thermalShutdown temp => Sys2Proof.Machine.execThermalShutdown temp s
  | .thermalRestart temp => Sys2Proof.Machine.execThermalRestart temp s
  | .legalTick => Sys2Proof.Machine.execLegalTick s
  | .tickCheckpoint ok => Sys2Proof.Machine.execTickCheckpoint ok s
  | .clockCheck c => Sys2Proof.Machine.execClockCheck c s
  | .crystalStop => Sys2Proof.Machine.execCrystalStop s
  | .crystalReturn => Sys2Proof.Machine.execCrystalReturn s
  | .spdPulse low high at' => Sys2Proof.Machine.execSpdPulse low high at' s
  | .speedGate now => Sys2Proof.Machine.execSpeedGate now s
  | .standstillTimeout now => Sys2Proof.Machine.execStandstillTimeout now s
  | .traceSample => Sys2Proof.Machine.execTraceSample s
  | .traceMirror => Sys2Proof.Machine.execTraceMirror s
  | .bucketRefill => Sys2Proof.Machine.execBucketRefill s
  | .tickAlarm t => Sys2Proof.Machine.execTickAlarm t s
  | .engineWindow => Sys2Proof.Machine.execEngineWindow s
  | .deadlineExpiry id => Sys2Proof.Machine.execDeadlineExpiry id s
  | .flaconStage id => Sys2Proof.Machine.execFlaconStage id s
  | .cacheZeroiseEnd passed => Sys2Proof.Machine.execCacheZeroiseEnd passed s
  | .laneQuantumEnd lane us mismatch => Sys2Proof.Machine.execLaneQuantumEnd lane us mismatch s
  | .pkProgramEnd e outputOk => Sys2Proof.Machine.execPkProgramEnd e outputOk s
  | .nonceReservationCommit id ok => Sys2Proof.Machine.execNonceReservationCommit id ok s
  | .nvmCommitEnd e => Sys2Proof.Machine.execNvmCommitEnd e s
  | .longSuspensionPoint h => Sys2Proof.Machine.execLongSuspensionPoint h s
  | .suspendLimitExpiry h => Sys2Proof.Machine.execSuspendLimitExpiry h s
  | .handleExpiry h => Sys2Proof.Machine.execHandleExpiry h s
  | .sessionIdleTimeout p sid => Sys2Proof.Machine.execSessionIdleTimeout p sid s
  | .laneKat lane passed => Sys2Proof.Machine.execLaneKat lane passed s
  | .hashKat u passed => Sys2Proof.Machine.execHashKat u passed s
  | .pkKat e passed => Sys2Proof.Machine.execPkKat e passed s
  | .randomHealthFail => Sys2Proof.Machine.execRandomHealthFail s
  | .watchdogExpiry w => Sys2Proof.Machine.execWatchdogExpiry w s
  | .clusterWatchdogExpiry w => Sys2Proof.Machine.execClusterWatchdogExpiry w s
  | .protectionFault who addr => Sys2Proof.Machine.execProtectionFault who addr s
  | .nvmScrub row area f => Sys2Proof.Machine.execNvmScrub row area f s
  | .journalFold => Sys2Proof.Machine.execJournalFold s
  | .patternSwitch => Sys2Proof.Machine.execPatternSwitch s
  | .tamperConfirm src value => Sys2Proof.Machine.execTamperConfirm src value s
  | .tamperClear src => Sys2Proof.Machine.execTamperClear src s
  | .tamperEvent src value => Sys2Proof.Machine.execTamperEvent src value s
  | .vddUnderHoldExpiry => Sys2Proof.Machine.execVddUnderHoldExpiry s
  | .tamperResponseSequence fuse cut => Sys2Proof.Machine.execTamperResponseSequence fuse cut s
  | .tamperHoldEnd => Sys2Proof.Machine.execTamperHoldEnd s
  | .sensorSelfCheck failing => Sys2Proof.Machine.execSensorSelfCheck failing s
  | .fuseResense temp reads => Sys2Proof.Machine.execFuseResense temp reads s
  | .handoverSeamPoint => Sys2Proof.Machine.execHandoverSeamPoint s
  | .handoverQuiesceTimeout => Sys2Proof.Machine.execHandoverQuiesceTimeout s
  | .handoverAdoption reason pause => Sys2Proof.Machine.execHandoverAdoption reason pause s
  | .handoverMonitorTimeout => Sys2Proof.Machine.execHandoverMonitorTimeout s
  | .successionTimeout => Sys2Proof.Machine.execSuccessionTimeout s
  | .appletTimerTrigger a => Sys2Proof.Machine.execAppletTimerTrigger a s
  | .appletActivationStart a => Sys2Proof.Machine.execAppletActivationStart a s
  | .fuelCheckpoint a => Sys2Proof.Machine.execFuelCheckpoint a s
  | .serviceCallReturn a => Sys2Proof.Machine.execServiceCallReturn a s
  | .nop a => Sys2Proof.Machine.execNop a s
  | .halt a => Sys2Proof.Machine.execHalt a s
  | .trap a imm => Sys2Proof.Machine.execTrap a imm s
  | .add a rd ra rb => Sys2Proof.Machine.execAdd a rd ra rb s
  | .sub a rd ra rb => Sys2Proof.Machine.execSub a rd ra rb s
  | .and a rd ra rb => Sys2Proof.Machine.execAnd a rd ra rb s
  | .or a rd ra rb => Sys2Proof.Machine.execOr a rd ra rb s
  | .xor a rd ra rb => Sys2Proof.Machine.execXor a rd ra rb s
  | .shl a rd ra rb => Sys2Proof.Machine.execShl a rd ra rb s
  | .shr a rd ra rb => Sys2Proof.Machine.execShr a rd ra rb s
  | .sar a rd ra rb => Sys2Proof.Machine.execSar a rd ra rb s
  | .mul a rd ra rb => Sys2Proof.Machine.execMul a rd ra rb s
  | .mulhu a rd ra rb => Sys2Proof.Machine.execMulhu a rd ra rb s
  | .divu a rd ra rb => Sys2Proof.Machine.execDivu a rd ra rb s
  | .remu a rd ra rb => Sys2Proof.Machine.execRemu a rd ra rb s
  | .slt a rd ra rb => Sys2Proof.Machine.execSlt a rd ra rb s
  | .sltu a rd ra rb => Sys2Proof.Machine.execSltu a rd ra rb s
  | .addi a rd ra imm => Sys2Proof.Machine.execAddi a rd ra imm s
  | .andi a rd ra imm => Sys2Proof.Machine.execAndi a rd ra imm s
  | .ori a rd ra imm => Sys2Proof.Machine.execOri a rd ra imm s
  | .xori a rd ra imm => Sys2Proof.Machine.execXori a rd ra imm s
  | .shli a rd ra imm => Sys2Proof.Machine.execShli a rd ra imm s
  | .shri a rd ra imm => Sys2Proof.Machine.execShri a rd ra imm s
  | .sari a rd ra imm => Sys2Proof.Machine.execSari a rd ra imm s
  | .slti a rd ra imm => Sys2Proof.Machine.execSlti a rd ra imm s
  | .sltiu a rd ra imm => Sys2Proof.Machine.execSltiu a rd ra imm s
  | .ldi a rd imm => Sys2Proof.Machine.execLdi a rd imm s
  | .ldx a rd imm => Sys2Proof.Machine.execLdx a rd imm s
  | .ld a rd ra imm => Sys2Proof.Machine.execLd a rd ra imm s
  | .st a rd ra imm => Sys2Proof.Machine.execSt a rd ra imm s
  | .ldb a rd ra imm => Sys2Proof.Machine.execLdb a rd ra imm s
  | .stb a rd ra imm => Sys2Proof.Machine.execStb a rd ra imm s
  | .beqz a ra ofs => Sys2Proof.Machine.execBeqz a ra ofs s
  | .bnez a ra ofs => Sys2Proof.Machine.execBnez a ra ofs s
  | .bltz a ra ofs => Sys2Proof.Machine.execBltz a ra ofs s
  | .bgez a ra ofs => Sys2Proof.Machine.execBgez a ra ofs s
  | .beq a rd ra ofs => Sys2Proof.Machine.execBeq a rd ra ofs s
  | .bne a rd ra ofs => Sys2Proof.Machine.execBne a rd ra ofs s
  | .blt a rd ra ofs => Sys2Proof.Machine.execBlt a rd ra ofs s
  | .bltu a rd ra ofs => Sys2Proof.Machine.execBltu a rd ra ofs s
  | .jmp a target => Sys2Proof.Machine.execJmp a target s
  | .call a target => Sys2Proof.Machine.execCall a target s
  | .jr a ra => Sys2Proof.Machine.execJr a ra s
  | .callr a ra => Sys2Proof.Machine.execCallr a ra s
  | .svc a opcode => Sys2Proof.Machine.execSvc a opcode s
  | .tick a rd => Sys2Proof.Machine.execTick a rd s
  | .fuel a rd => Sys2Proof.Machine.execFuel a rd s
  | .rand a rd => Sys2Proof.Machine.execRand a rd s
  | .extest => Sys2Proof.Machine.execExtest s
  | .samplePreload => Sys2Proof.Machine.execSamplePreload s
  | .idcode => Sys2Proof.Machine.execIdcode s
  | .clamp => Sys2Proof.Machine.execClamp s
  | .highz => Sys2Proof.Machine.execHighz s
  | .dbgSelect => Sys2Proof.Machine.execDbgSelect s
  | .bypass => Sys2Proof.Machine.execBypass s
  | .testLogicReset => Sys2Proof.Machine.execTestLogicReset s
  | .dbgNop req core => Sys2Proof.Machine.execDbgNop req core s
  | .dbgRead core addr => Sys2Proof.Machine.execDbgRead core addr s
  | .dbgWrite core addr data => Sys2Proof.Machine.execDbgWrite core addr data s
  | .dbgHalt core atomic => Sys2Proof.Machine.execDbgHalt core atomic s
  | .dbgHaltDeferred ended => Sys2Proof.Machine.execDbgHaltDeferred ended s
  | .dbgResume core => Sys2Proof.Machine.execDbgResume core s
  | .dbgStep core => Sys2Proof.Machine.execDbgStep core s
  | .dbgStatus core => Sys2Proof.Machine.execDbgStatus core s
  | .bootPushStallTimeout => Sys2Proof.Machine.execBootPushStallTimeout s
  | .linkError p => Sys2Proof.Machine.execLinkError p s

end Sys2Proof.Machine
end

