-- ==== Sys2Proof/Machine/Pins.lean ====
section
/-! DEFINITION. The signal balls (R32): direction, pad group, state at reset, and the state each pin is in. -/
namespace Sys2Proof.Machine

inductive Pin where
  | aSck | aCsN | aIo (i : Fin 8) | aDqs | aAttnN
  | fSck | fCsN | fIo (i : Fin 4)
  | bSck | bCsN | bIo (i : Fin 4) | bAttnN
  | mScl | mSda | mAlertN
  | tck | tms | tdi | tdo | trstN
  | bootSel (i : Fin 2)
  | resetN | pfN | spdIn | lidIn | tampOut | meshOut (i : Fin 2) | meshIn (i : Fin 2) | xin32 | xout32
  deriving DecidableEq, Repr

inductive PinDir where
  | input | output | inOut | openDrain | analog
  deriving DecidableEq, Repr

inductive PadGroup where
  | a | b | m | aon
  deriving DecidableEq, Repr

inductive PinState where
  /-- High impedance. -/
  | z
  /-- Internal pull-up, pull-down, and LID_IN's strobed pull-up. -/
  | pullUp | pullDown | strobed
  | driven (high : Bool)
  /-- The mesh pattern, the crystal. -/
  | pattern | oscillating
  deriving DecidableEq, Repr

def Pin.dir (p : Pin) : PinDir :=
  match p with
  | .aIo _ | .fIo _ | .bIo _ => .inOut
  | .aDqs | .aAttnN | .fSck | .fCsN | .bAttnN | .tdo | .tampOut | .meshOut _ => .output
  | .mScl | .mSda | .mAlertN => .openDrain
  | .xin32 | .xout32 => .analog
  | .aSck | .aCsN | .bSck | .bCsN | .tck | .tms | .tdi | .trstN | .bootSel _ | .resetN | .pfN | .spdIn | .lidIn | .meshIn _ => .input

def Pin.group (p : Pin) : PadGroup :=
  match p with
  | .aSck | .aCsN | .aIo _ | .aDqs | .aAttnN | .fSck | .fCsN | .fIo _ => .a
  | .bSck | .bCsN | .bIo _ | .bAttnN => .b
  | .mScl | .mSda | .mAlertN | .tck | .tms | .tdi | .tdo | .trstN | .bootSel _ => .m
  | .resetN | .pfN | .spdIn | .lidIn | .tampOut | .meshOut _ | .meshIn _ | .xin32 | .xout32 => .aon

/-- State at reset, until firmware configures the pin (R32). -/
def Pin.atReset (p : Pin) : PinState :=
  match p with
  | .aSck | .aIo _ | .aDqs | .bSck | .bIo _ | .mScl | .mSda | .mAlertN | .tdo | .spdIn => .z
  | .aCsN | .aAttnN | .fIo _ | .bCsN | .bAttnN | .tms | .tdi | .resetN | .pfN => .pullUp
  | .tck | .trstN | .bootSel _ | .meshIn _ => .pullDown
  | .fSck | .tampOut => .driven false
  | .fCsN => .driven true
  | .lidIn => .strobed
  | .meshOut _ => .pattern
  | .xin32 | .xout32 => .oscillating

/-- The reference rail of a pad group is up; that of the always-on group while the device has any supply (R36). -/
def groupLive (d : Dev) (g : PadGroup) : Bool :=
  match g with
  | .a => d.power.railA.isSome
  | .b => d.power.railB.isSome
  | .m => d.power.railM.isSome
  | .aon => d.power.state != .off

-- Boundary scan (R688, R704)

/-- The scanned pins in the order of the signal balls table: neither the JTAG pins nor the always-on group. -/
def scanPins : List Pin :=
  [.aSck, .aCsN, .aIo 0, .aIo 1, .aIo 2, .aIo 3, .aIo 4, .aIo 5, .aIo 6, .aIo 7, .aDqs, .aAttnN, .fSck, .fCsN, .fIo 0, .fIo 1, .fIo 2,
    .fIo 3, .bSck, .bCsN, .bIo 0, .bIo 1, .bIo 2, .bIo 3, .bAttnN, .mScl, .mSda, .mAlertN, .bootSel 0, .bootSel 1]

/-- Cells of a pin: an input has one, an output data and enable, an I/O input, data and enable; M_ALERT_N is an output. -/
def scanCells (p : Pin) : Nat :=
  match p with
  | .mAlertN => 2
  | _ => match p.dir with
    | .input => 1
    | .output => 2
    | _ => 3

/-- First cell of a scanned pin; cell i is bit i of the boundary register (DESIGN CHOICE, log 86). -/
def scanAt (p : Pin) : Nat := ((scanPins.takeWhile (· != p)).map scanCells).foldl (· + ·) 0

/-- What the boundary register drives: the data cell when the enable cell is 1. -/
def scanDrive (d : Dev) (p : Pin) : PinState :=
  let n := scanCells p
  let cell (i : Nat) : Bool := d.dbg.boundary.getLsbD (scanAt p + i)
  if n = 1 ∨ !cell (n - 1) then .z else .driven (cell (n - 2))

-- The state of a pin

/-- The device logic's own drive, once the ports' logic runs (R181, R490, R610); the rest keep their state at reset. -/
def logicDrive (s : State) (p : Pin) : PinState :=
  let up := s.dev.boot.progress != 0
  match p with
  | .aAttnN => if up then .driven (!attnLow s .a) else p.atReset
  | .bAttnN => if up then .driven (!attnLow s .b) else p.atReset
  | .mAlertN => if alertLow s.dev then .driven false else .z
  | .tampOut => .driven (tampOut s.dev)
  | .meshOut i => if srcDisabled s.dev (23 + i.val) then .driven false else .pattern
  | _ => p.atReset

/-- The state of a pin: high impedance without its group's rail (R36), the boundary register's while a scan instruction holds it
(R688), else the device's own. -/
def pinState (s : State) (p : Pin) : PinState :=
  if !groupLive s.dev p.group then .z
  else if scanHoldsPorts s.dev && scanPins.contains p then (if s.dev.dbg.ir == 0x04 then .z else scanDrive s.dev p)
  else logicDrive s p

end Sys2Proof.Machine
end

