-- ==== Sys2Proof/Machine/Spi.lean ====
section
/-! DEFINITION. The SPI instruction set of the host ports (R173-R177): what the bytes of one transaction, from CS_N falling to CS_N
rising, command, and what a read instruction returns. -/
namespace Sys2Proof.Machine

/-- The instruction byte and the bytes after it; port A sends the complement of the instruction with it (R174). -/
def spiHead (p : Port) (bs : List Byte) : Option (Byte × List Byte) :=
  match p, bs with
  | .a, i :: c :: rest => if c = ~~~i then some (i, rest) else none
  | .b, i :: rest => some (i, rest)
  | _, _ => none

/-- The whole words of the data bytes; an incomplete word is discarded (R175). -/
def wholeWords (bs : List Byte) : List Word := bytesWordsN (bs.length / 6) bs

/-- What a transaction asks of its port. -/
inductive SpiOp where
  | regWrite (index : Byte) (value : Word)
  | frameWrite (offset : Nat) (words : List Word)
  | replyRelease (tag : BitVec 16)
  | linkError
  deriving DecidableEq, Repr

/-- REG_WRITE goes from the index upward; reserved indexes have no effect (R176). -/
def regWrites (index : Nat) (ws : List Word) : List SpiOp :=
  (ws.zipIdx index).filterMap (fun x => if x.2 ≤ 6 then some (.regWrite (BitVec.ofNat 8 x.2) x.1) else none)

/-- What the bytes of a transaction from the host ask of port p (R173). One that ends inside its instruction or address asks nothing
(DESIGN CHOICE, log 87). -/
def spiOps (p : Port) (bs : List Byte) : List SpiOp :=
  if bs.length < (match p with | .a => 4 | .b => 3) then []
  else
    match spiHead p bs with
    | none => [.linkError]
    | some (i, rest) =>
      let addr := leNat (rest.take 2)
      match i.toNat with
      | 0x01 => []
      | 0x02 => regWrites addr (wholeWords (rest.drop 2))
      | 0x03 => [.frameWrite addr (wholeWords (rest.drop 2))]
      | 0x04 => []
      | 0x05 => [.replyRelease (BitVec.ofNat 16 addr)]
      | _ => [.linkError]

/-- The command of the opcode table that serves a part of a transaction. -/
def SpiOp.run (p : Port) (o : SpiOp) (s : State) : Out :=
  match o with
  | .regWrite i v => execRegWrite (.port p) i v s
  | .frameWrite n ws => execRequestFrame p n ws s
  | .replyRelease t => execReplyRelease p t s
  | .linkError => execLinkError p s

/-- The n data words that REG_READ or FRAME_READ at an address returns; indexes above 0x06 and words past the head's end read as
zero. -/
def spiRead (s : State) (p : Port) (i : Byte) (addr n : Nat) : List Word :=
  match i.toNat with
  | 0x01 => (List.range n).map (fun k => portReg s p (addr + k))
  | 0x04 => frameRead (s.flow.port p) addr n
  | _ => []

end Sys2Proof.Machine
end

