-- ==== Sys2Proof/Safety.lean ====
section
/-! DEFINITION. The words in which statements are made: a host command that is about to be served, the ways it leaves its step, the
invariants every step keeps. -/
namespace Sys2Proof.Machine

/-- No dimension refuses the command (R17, R708 step 2). -/
def dimsPass (r : Req) (d : Dev) : Bool :=
  match dims r d with
  | .ok _ => true
  | .error _ => false

/-- The device without an accepted command. -/
def taken (r : Req) (d : Dev) : Dev := { d with cmds := d.cmds.erase r }

/-- The device holds the command under its opcode, dispatch runs, its deadline has not passed and no dimension refuses it. -/
abbrev Served (op : Nat) (r : Req) (d : Dev) : Prop :=
  r ∈ d.cmds ∧ r.opcode.toNat = op ∧ mustWait r d = false ∧ d.now ≤ r.deadline ∧ dimsPass r (taken r d) = true

/-- The command completes with a status, words and a payload length, and leaves the device d; its staged entry is used up. -/
def ends (st : Byte) (r : Req) (ws : List Word) (n : Nat) (d : Dev) (s : State) : Out :=
  .next { s with dev := conclude r st ws n d }

/-- OK with whole words. -/
def answers (r : Req) (ws : List Word) (d : Dev) (s : State) : Out := ends St.ok r ws (6 * ws.length) d s

/-- The final reply of a long operation, under the operation's own generation (R268). -/
def answersIn (gen : Nat) (r : Req) (ws : List Word) (n : Nat) (d : Dev) (s : State) : Out := ends St.ok { r with gen := gen } ws n d s

/-- The command waits, in its place among those that were admitted. -/
def waits (r : Req) (d : Dev) (s : State) : Out := .next { s with dev := requeue r d }

/-- The command goes on in the device d and replies later. -/
def goesOn (r : Req) (d : Dev) (s : State) : Out := .next { s with dev := dropStaged r.id true d }

/-- What one host row does: its opcode, the row, the conditions under which it takes its effect, and that effect, both over the
device without the command. -/
structure HostEffect where
  op : Nat
  row : Req → Instr
  pre : Req → Dev → Bool
  out : Req → Dev → State → Out

/-- Whenever the device holds the command and serves it and the conditions hold, the row answers the next state of its effect. -/
def HostEffect.Holds (e : HostEffect) : Prop :=
  ∀ r s, Served e.op r s.dev → e.pre r (taken r s.dev) = true → exec (e.row r) s = e.out r (taken r s.dev) s

/-- Some device and command meet the conditions. -/
abbrev HostEffect.Fits (e : HostEffect) (r : Req) (d : Dev) : Prop := Served e.op r d ∧ e.pre r (taken r d) = true

/-- An event that, under a condition on the device, answers the next state with the device changed by f and all else as it was. -/
def Happens (c : Instr) (pre : Dev → Bool) (f : Dev → Dev) : Prop :=
  ∀ s, pre s.dev = true → exec c s = .next { s with dev := f s.dev }

/-- The same with the mailboxes, rings and refusal slots emptied (R222). -/
def Restarts (c : Instr) (pre : Dev → Bool) (f : Dev → Dev) : Prop :=
  ∀ s, pre s.dev = true → exec c s = .next { s with dev := f s.dev, flow := {} }

/-- The value of a successful step of a body, or the device as it was. -/
def orElse {α : Type} (x : Res α) (a : α) : α :=
  match x with
  | .ok v => v
  | .error _ => a

/-- Credits of a port: what it holds never exceeds its total T (R198). -/
def creditsOk (f : Flow) : Bool :=
  decide (f.a.mailbox + f.a.ring.length ≤ Port.a.credits) && decide (f.b.mailbox + f.b.ring.length ≤ Port.b.credits)

end Sys2Proof.Machine
end

