-- ==== Sys2Proof/Certificates/Slice0/Obligations.lean ====
section
/-! DEFINITION. The statements for the provers. Each host row's effect stands as a value (opcode, row, conditions, next state); the
statements stand at the end of the file and name them. -/
namespace Sys2Proof.Machine

-- Class 0x01

/-- The command ends with a status alone and has taken no effect. -/
def refused (st : Byte) (r : Req) (d : Dev) (s : State) : Out := .next { s with dev := complete r st [] 0 d }

def effLinkInfo : HostEffect where
  op := 0x0101
  row := .linkInfo
  pre r _ := !r.inSession && r.len == 0
  out r d s :=
    let p := match r.origin with
      | .port p => p
      | _ => .a
    answers r ([linkVersion p] ++ d.serial ++ [mkWord [(47, 40, d.lifecycle.code), (23, 0, d.pat.gen)],
      mkWord [(47, 40, (primaryPort d).code), (15, 0, d.cfg 8 39 30)]]) d s

def effLinkPing : HostEffect where
  op := 0x0102
  row := .linkPing
  pre r _ := r.len == 0
  out r d s := answers r [] d s

def portOf (r : Req) : Option Port :=
  match r.origin with
  | .port p => some p
  | _ => none

/-- The open session that a port request came in (R221, R223). -/
def requestSession (r : Req) (d : Dev) : Option Session := (portOf r).bind (fun p => ownSession d p r)

def effSessionStatus : HostEffect where
  op := 0x0112
  row := .sessionStatus
  pre r d := r.mac && r.len == 0 && (requestSession r d).isSome
  out r d s := match requestSession r d with
    | some x => answers r [mkWord [(47, 40, x.tenant.toNat), (39, 32, x.id.toNat), (31, 24, x.options.toNat), (15, 0, x.idle)],
        word x.reqCtr, word x.repCtr] d s
    | none => .next s

-- Commands that programs serve (R208, R251, R398, R401, R414)

/-- An engine, operand slots and, where the program needs it, randomness are there for a program. -/
def progFits (r : Req) (p : Nat) (d : Dev) : Bool :=
  let n := slotsOf r p (partOf d r)
  (freeEngine d p none).isSome && slotsFree d r.tenant (partOf d r) n && decide (n ≤ partSlots (partOf d r))
    && (isVerifyProg p || d.sym.randomOk) && operandRoom d (partOf d r) n

/-- The command's first program can start, its programs end in time, and the tenant has engine time left. -/
def pkGoes (r : Req) (d : Dev) : Bool :=
  let ps := programsOf d r
  ps.headD 0 != 0 && !pastDeadline d r ps && !pkTimeUp d r.gen r.tenant && progFits r (ps.headD 0) d

/-- The first of a command's programs starts on the free engine with its operand slots, the rest behind it. -/
def pkStarts (r : Req) (ps : List Nat) (slot : Option SlotRef) (work : PkWork) (d : Dev) (s : State) : Out :=
  goesOn r (startProg ((freeEngine d (ps.headD 0) none).getD 0)
    { req := r, prog := ps.headD 0, chain := ps.drop 1, began := d.now, tenant := r.tenant
      slots := slotsOf r (ps.headD 0) (partOf d r), part := partOf d r, slot := slot, work := work } d) s

/-- The device when dispatch comes to the command: it is no longer among those that wait for an engine. -/
def unready (r : Req) (d : Dev) : Dev := { d with pkReady := d.pkReady.filter (· != r.id) }

/-- SESSION_OPEN starts its chain of verification, key generation, agreement and signature, whatever its signature says; its outcome is
held for the fixed time from there (R207, R208). -/
def effSessionOpen : HostEffect where
  op := 0x0110
  row := .sessionOpen
  pre r d := !r.inSession && !(opensAdmin r && openTenant r != 0) && r.sized 30
    && onlyBits (r.w 0) [(47, 40), (39, 32), (25, 24), (15, 0)] && openTenant r != 0xFF && (r.f 0 39 32 == 1 || r.f 0 39 32 == 2)
    && decide (r.f 0 15 0 ≤ 3600) && ((r.bytesFrom 3 66).drop (if r.f 0 39 32 == 2 then 32 else 64)).all (· == 0)
    && d.sym.randomOk && pkGoes r d
    && (portOf r).any (fun p => !(opensAdmin r && (adminSession (d.port p)).isSome) && (freeSession (d.port p)).isSome)
  out r d s :=
    let first := if (authorityOf d r).map (·.1) = some 1 then 0x02 else if (authorityOf d r).map (·.1) = some 3 then 0x06 else 0x04
    let rest := if r.f 0 39 32 == 2 then [0x0C, 0x09, 0x03] else [0x0A, 0x07, 0x03]
    match authorityOf d r with
    | some (kt, key) => pkStarts r (first :: rest) none (.session kt key) (unready r d) s
    | none =>
      let k := drawBytes 56 (unready r d)
      pkStarts r (0x04 :: rest) none (.session 0 (p384.publicOf (scalarFrom 0x11 k.1))) k.2 s

/-- SESSION_CLOSE marks the session it came in as closing with this reply; one that has closed meanwhile is left (R221, R223). -/
def effSessionClose : HostEffect where
  op := 0x0111
  row := .sessionClose
  pre r _ := r.mac && r.len == 0 && (portOf r).isSome
  out r d s := match portOf r, requestSession r d with
    | some p, some _ => answers r [] (orphan p r.opened (modSession p r.session (fun x => { x with closing := some r.id }) d)) s
    | _, _ => answers r [] d s

/-- Sessions of the named tenant but the one the command came in. -/
def revoked (r : Req) (p : Port) (x : Session) : Bool :=
  x.tenant == BitVec.ofNat 8 (r.f 0 47 40) && !(r.origin == .port p && x.id == r.session) && x.closing.isNone

def effSessionRevoke : HostEffect where
  op := 0x0113
  row := .sessionRevoke
  pre r _ := r.tenant == 0 && r.inSession && r.sized 1 && onlyBits (r.w 0) [(47, 40)] && r.f 0 47 40 != 0xFF
  out r d s := answers r [word ((d.portA.sessions.filter (revoked r .a)).length + (d.portB.sessions.filter (revoked r .b)).length)]
    (closeWhere .b (revoked r .b) (closeWhere .a (revoked r .a) d)) s

-- Class 0x02

def effTenantWrite : HostEffect where
  op := 0x0201
  row := .tenantWrite
  pre r d := r.tenant == 0 && r.sized 20 && recordOk r.words && decide (writeEpoch d (BitVec.ofNat 8 (recTenant r.words)) < 2 ^ 24)
    && (staged d).edits != 0xFFFF
  out r d s :=
    let e := writeEpoch d (BitVec.ofNat 8 (recTenant r.words))
    let g := staged d
    answers r [word e] { d with pat := { d.pat with
      staging := some { g with image := putRecord (recordWithEpoch r.words e) g.image, edits := g.edits + 1 } } } s

def effTenantRemove : HostEffect where
  op := 0x0202
  row := .tenantRemove
  pre r d := r.tenant == 0 && r.sized 1 && onlyBits (r.w 0) [(47, 40)] && r.f 0 47 40 != 0xFF && decide (2 ≤ r.f 0 47 40)
    && (tenantRec (staged d).image (BitVec.ofNat 8 (r.f 0 47 40))).isSome && (staged d).edits != 0xFFFF
  out r d s :=
    let g := staged d
    answers r [] { d with pat := { d.pat with
      staging := some { g with image := dropRecord (r.f 0 47 40) g.image, edits := g.edits + 1 } } } s

def effTenantRead : HostEffect where
  op := 0x0203
  row := .tenantRead
  pre r d := (r.tenant == 0 || (r.tenant != 0xFF && r.f 0 47 40 == r.tenant.toNat)) && r.sized 1 && onlyBits (r.w 0) [(47, 40)]
    && r.f 0 47 40 != 0xFF && (tenantRec d.pat.image (BitVec.ofNat 8 (r.f 0 47 40))).isSome
  out r d s :=
    let t : Byte := BitVec.ofNat 8 (r.f 0 47 40)
    let x := (tenantRec d.pat.image t).getD []
    answers r (x ++ [word (flag (r.tenant == 0 && tenantRec (staged d).image t != some x))]) d s

def effTenantList : HostEffect where
  op := 0x0204
  row := .tenantList
  pre r _ := r.tenant == 0 && r.len == 0
  out r d s :=
    let n := ((tenantTable d.pat.image).map (fun x => 2 ^ recTenant x)).foldl (· + ·) 0
    answers r ((List.range 6).map (fun i => word (n / 2 ^ (48 * i)))) d s

def effTenantStats : HostEffect where
  op := 0x0205
  row := .tenantStats
  pre r _ := r.tenant != 0xFF && r.len == 0
  out r d s :=
    let x := statOf d r.tenant
    let n := ((d.keys.staged.filter (fun x => x.tenant == r.tenant)).map (·.entries)).foldl (· + ·) 0
    answers r [mkWord [(47, 40, heldBy d (· == r.tenant)), (39, 28, cacheHeld d r.tenant), (27, 16, n),
        (15, 8, (d.sched.longs.filter (fun l => l.tenant == r.tenant)).length)],
      mkWord [(47, 32, x.laneUs / 1000), (31, 16, x.pkUs / 1000), (7, 0, ceilDiv (heldOperandBytes d r.tenant) 1024)],
      mkWord [(47, 24, x.quotaRefusals), (23, 0, x.deadlines)]] d s

def effEngineOccupancy : HostEffect where
  op := 0x0206
  row := .engineOccupancy
  pre r _ := r.tenant == 0 && r.len == 0
  out r d s :=
    let b := List.replicate (256 - d.sched.buckets.length) (0, 0) ++ d.sched.buckets
    answers r (word ((d.now / 4 * 4 + 2 ^ 24 - 1020) % 2 ^ 24) ::
      (chunksOf 8 32 b).map (fun c => word ((c.map (fun (x : Nat × Nat) => x.1 % 16 * 4 + x.2 % 4)).foldr (fun v acc => v + 64 * acc) 0))) d s

def effLifecycleRead : HostEffect where
  op := 0x02F0
  row := .lifecycleRead
  pre r _ := r.tenant != 0xFF && r.len == 0
  out r d s := answers r [mkWord [(47, 40, d.lifecycle.code), (39, 32, d.orderByte),
      (0, 0, flag (d.boot.marker.isSome || d.boot.scorchPending))], word d.secVersion, word d.boot.secMinor, word d.boot.lastCause.toNat,
    mkWord [(7, 0, d.boot.progress.toNat), (8, 8, flag (!d.fuse.marginal.isEmpty || !d.fuse.unusable.isEmpty))]] d s

/-- The preconditions of LIFECYCLE_ADVANCE (R123-R128). -/
def mayAdvance (r : Req) (d : Dev) : Bool :=
  r.tenant == 0 && r.inSession && !(d.succ.state == 1 || d.succ.state == 2) && d.fw.handover.isNone && r.sized 1
    && (nextState d.lifecycle).isSome && (nextState d.lifecycle).map Lifecycle.code == some (r.f 0 47 40) && confirmOk d (r.w 0)
    && fuseWindow d && advanceReason ((nextState d.lifecycle).getD .blank) d == 0

/-- The fuse group's programming ends whole, with a bit that still reads unblown, or it is stopped; in the last two cases the
transition stays open (R120, R129). -/
def effLifecycleAdvance (fuse : FuseEnd) : HostEffect where
  op := 0x02F1
  row r := .lifecycleAdvance r fuse
  pre := mayAdvance
  out r d s :=
    let dest := (nextState d.lifecycle).getD .blank
    let x := blowGroup 6 0 (dest.code - 1) fuse (openTransition dest d)
    match fuse with
    | .programmed => answers r [mkWord [(47, 40, dest.code)]] (transit dest d) s
    | .stuck _ _ => ends St.internalFault r [] 0 (raiseFault 6 x) s
    | _ => waits r x s

def effOptionProgram (fails : Option (Nat × FuseEnd)) : HostEffect where
  op := 0x02F2
  row r := .optionProgram r fails
  pre r d := r.tenant == 0 && r.inSession && !(d.succ.state == 1 || d.succ.state == 2) && d.fw.handover.isNone
    && r.sized 2 && onlyBits (r.w 0) [(3, 0)] && onlyBits (r.w 1) [(39, 0)] && confirmOk d (r.w 1)
    && !((List.range 4).any (fun g => r.f 0 3 0 / 2 ^ g % 2 == 1 && d.optionBlown g)) && fuseWindow d && optionReason (r.f 0 3 0) d == 0
  out r d s :=
    let p := blowOptions fails (optionOrder (r.f 0 3 0)) d
    match p.2 with
    | .programmed => answers r [p.1.shadow 1] p.1 s
    | .stuck _ _ => ends St.internalFault r [] 0 (raiseFault 6 p.1) s
    | _ => waits r p.1 s

-- Class 0x03

/-- What KEY_DERIVE needs: an index, a cache entry, the derivation path (R307, R336, R337). -/
def deriveNeeds (r : Req) (d : Dev) : Res (Nat × Dev) := do
  let i ← volatileTarget r (r.f 0 39 28) d
  let d ← needEntry r (cacheCost (descType (r.w 1))) (dropSlot r.tenant i d)
  let d ← needHeart r.tenant r.gen d
  .ok (i, d)

/-- KEY_DERIVE writes the derived key under the next generation and answers its handle (R293-R298). -/
def effKeyDerive : HostEffect where
  op := 0x0301
  row := .keyDerive
  pre r d := r.tenant != 0xFF && r.sized 10 && onlyBits (r.w 0) [(39, 28)] && !isPersistent (r.f 0 39 28) && descOk (r.w 1)
    && (deriveNeeds r d).isOk
  out r d s :=
    let x := orElse (deriveNeeds r d) (0, d)
    let w := writeVolatile { tenant := r.tenant, index := x.1, ktype := descType (r.w 1), usages := BitVec.ofNat 8 (descUsages (r.w 1))
                             streamRel := bitOf (r.w 1) 24, descriptor := r.w 1
                             material := topKeyOf x.2 r.tenant (tenantEpoch x.2 r.gen r.tenant) (r.w 1) (r.words.drop 2) } x.2
    answers r [w.1] w.2 s

/-- What FLACON_LOAD needs: the flacon's checks in the order of R314, an index, a cache entry. -/
def loadNeeds (r : Req) (d : Dev) : Res (Slot × Dev) := do
  let f := r.words.drop 1
  let i ← volatileTarget r (r.f 0 39 28) d
  let _ ← needEntry r (cacheCost (fld (wd f 0) 31 24)) (dropStaged r.id false (dropSlot r.tenant i d))
  let (m, d) ← unwrapFlacon r f d
  let sl := slotFromFlacon r.tenant i f m
  let d ← needEntry r (cacheCost sl.ktype) (dropStaged r.id false (dropSlot r.tenant i d))
  .ok (sl, d)

def effFlaconLoad : HostEffect where
  op := 0x0302
  row := .flaconLoad
  pre r d := r.tenant != 0xFF && r.sizedMin 12 && onlyBits (r.w 0) [(39, 28)] && !isPersistent (r.f 0 39 28)
    && !(fld (wd (r.words.drop 1) 0) 31 24 == 0x20 || fld (wd (r.words.drop 1) 0) 31 24 == 0x21) && (loadNeeds r d).isOk
  out r d s :=
    let x := orElse (loadNeeds r d) ({}, d)
    let w := writeVolatile x.1 x.2
    answers r [w.1] w.2 s

/-- The flacon key under which a tenant's new flacons are sealed. -/
def sealKey (r : Req) (d : Dev) : List Byte := flaconKeyOf d r.tenant (tenantEpoch d r.gen r.tenant) (liveEpoch d r.tenant)

/-- Random material of a type that no program generates. -/
def randomMaterial (kt : Nat) (d : Dev) : List Byte × Dev := drawBytes (if kt == 0x21 then 64 else topBits kt / 8) d

/-- The checks of FLACON_CREATE before its material (R316, R318). -/
def createAsked (r : Req) (d : Dev) : Bool :=
  r.tenant != 0xFF && r.sized 7 && onlyBits (r.w 0) [(39, 28), (0, 0)] && !isPersistent (r.f 0 39 28)
    && (bitOf (r.w 0) 0 || r.f 0 39 28 == 0) && r.f 1 39 32 == r.tenant.toNat && headerOk 1 (createTemplate r d)
    && r.f 1 31 24 != 0x20 && !(bitOf (r.w 0) 0 && r.f 1 31 24 == 0x21) && (createTarget r d).isOk

/-- FLACON_CREATE of a type whose material is random bytes: the flacon at once, and with the load option the slot (R316). -/
def effFlaconCreate : HostEffect where
  op := 0x0303
  row := .flaconCreate
  pre r d := createAsked r (unready r d) && genProg (r.f 1 31 24) == 0 && d.sym.randomOk
  out r d s :=
    let t := orElse (createTarget r (unready r d)) (0, d)
    let m := randomMaterial (r.f 1 31 24) t.2
    let x := sealFlacon (sealKey r m.2) (createTemplate r m.2) m.1 m.2
    if bitOf (r.w 0) 0 then
      let w := writeVolatile (slotFromFlacon r.tenant t.1 x.1 m.1) x.2
      answers r (w.1 :: x.1) w.2 s
    else answers r (0 :: x.1) x.2 s

/-- FLACON_CREATE of an elliptic-curve type: the generation program starts (R316, R401). -/
def effFlaconCreateEc : HostEffect where
  op := 0x0303
  row := .flaconCreate
  pre r d := createAsked r (unready r d) && genProg (r.f 1 31 24) != 0 && pkGoes r d
  out r d s := pkStarts r [genProg (r.f 1 31 24)] none .generate (unready r d) s

/-- FLACON_IMPORT in mode 0x01: the material of an encrypted frame, sealed (R317). -/
def effFlaconImport : HostEffect where
  op := 0x0304
  row := .flaconImport
  pre r d :=
    let kt := r.f 2 31 24
    let m0 := materialLen kt
    let data := r.bytesFrom 8 m0
    r.tenant != 0xFF && r.sizedMin 9 && r.w 0 == mkWord [(47, 40, 1)] && r.enc && r.w 1 == 0
      && r.f 2 39 32 == r.tenant.toNat && headerOk 1 (template (r.words.drop 2) (liveEpoch d r.tenant) m0)
      && decide (data.length ≤ r.len - 48) && decide (r.len - 48 ≤ 6 * ceilDiv data.length 6)
      && ((r.bytesFrom 8 (r.len - 48)).drop data.length).all (· == 0) && materialOk kt data
      && d.sym.randomOk && (needHeart r.tenant r.gen d).isOk
  out r d s :=
    let m0 := materialLen (r.f 2 31 24)
    let x := touchHeart r.tenant (tenantEpoch d r.gen r.tenant) d
    let y := sealFlacon (sealKey r x) (template (r.words.drop 2) (liveEpoch d r.tenant) m0) (r.bytesFrom 8 m0) x
    answers r y.1 y.2 s

/-- The checks of KEY_PERSIST of generated material (R308-R310, R615). -/
def persistAsked (r : Req) (d : Dev) : Bool :=
  let i := r.f 0 39 28
  r.tenant != 0xFF && onlyBits (r.w 0) [(47, 40), (39, 28), (0, 0)] && isPersistent i && r.f 0 47 40 == 1 && r.sized 3
    && descOk (r.w 1) && (!bitOf (r.w 0) 0 || isAes (descType (r.w 1))) && (bitOf (r.w 0) 0 || r.w 2 == 0)
    && !(r.tenant == 0 && i == 0xFFF) && (persistRoom r d).isOk

/-- KEY_PERSIST of random material: the slot is empty under its new generation until its write completes (R308, R322). -/
def effKeyPersist : HostEffect where
  op := 0x0310
  row := .keyPersist
  pre r d := persistAsked r (unready r d) && genProg (descType (r.w 1)) == 0 && d.sym.randomOk
  out r d s :=
    let g := randomMaterial (descType (r.w 1)) (unready r d)
    goesOn r (startPersist r { persistSlot r (r.w 1) with
      material := g.1, nonce := if bitOf (r.w 0) 0 then some { fixed := r.w 2 } else none } g.2) s

/-- KEY_PERSIST of an elliptic-curve key: its generation program starts, the write follows at its end (R309, R401). -/
def effKeyPersistEc : HostEffect where
  op := 0x0310
  row := .keyPersist
  pre r d := persistAsked r (unready r d) && genProg (descType (r.w 1)) != 0 && pkGoes r d
  out r d s := pkStarts r [genProg (descType (r.w 1))] none .generate (unready r d) s

/-- KEY_PERSIST of a derived key (R309). -/
def effKeyPersistDerived : HostEffect where
  op := 0x0310
  row := .keyPersist
  pre r d :=
    let i := r.f 0 39 28
    r.tenant != 0xFF && onlyBits (r.w 0) [(47, 40), (39, 28)] && isPersistent i && r.f 0 47 40 == 3 && r.sized 11 && r.w 2 == 0
      && descOk (r.w 1) && !(r.tenant == 0 && i == 0xFFF && (descType (r.w 1) != 3 || descUsages (r.w 1) != 0x0C))
      && (persistRoom r (unready r d)).isOk && (needHeart r.tenant r.gen d).isOk
  out r d s :=
    let x := touchHeart r.tenant (tenantEpoch d r.gen r.tenant) (unready r d)
    goesOn r (startPersist r { persistSlot r (r.w 1) with
      material := topKeyOf x r.tenant (tenantEpoch x r.gen r.tenant) (r.w 1) (r.words.drop 3) } x) s

/-- KEY_ERASE: the slot goes and the next generation is used up; under URGENT the work it is pinned by is revoked and counted; a
persistent slot's erasure is committed first (R298, R322, R326). -/
def effKeyErase : HostEffect where
  op := 0x0311
  row := .keyErase
  pre r d := r.tenant != 0xFF && r.sized 1 && !(r.tenant == 1 && r.f 0 47 40 == 1 && r.f 0 39 28 == 0xF00)
    && (checkHandle r.tenant (r.w 0) none d).isOk
  out r d s :=
    let x := orElse (checkHandle r.tenant (r.w 0) none d) {}
    let n := if r.urgent then pinnedJobs d x else 0
    let e := logAt Core.sec 83 x.handle (word n) false (eraseSlot x.tenant x.index (if r.urgent then revoke x d else d))
    if isPersistent x.index then
      goesOn r { e with nvm := { e.nvm with writes := e.nvm.writes ++ [{ req := some r, effect := .erase x.tenant x.index n }] } } s
    else answers r [word n] e s

def effKeyInfo : HostEffect where
  op := 0x0312
  row := .keyInfo
  pre r d := r.tenant != 0xFF && r.sized 1 && (checkHandle r.tenant (r.w 0) none d).isOk
  out r d s :=
    let x := orElse (checkHandle r.tenant (r.w 0) none d) {}
    answers r [x.handle, x.descriptor, mkWord [(47, 40, if isPersistent x.index then (if x.resident then 1 else 3) else 2), (15, 0, x.epoch)],
      (x.nonce.map (fun n => word n.next)).getD 0, x.expiry] d s

def effKeyList : HostEffect where
  op := 0x0313
  row := .keyList
  pre r _ := r.tenant != 0xFF && r.sized 1 && onlyBits (r.w 0) [(0, 0)]
  out r d s :=
    let l := (d.keys.slots.filter (fun x => x.tenant == r.tenant && isPersistent x.index == bitOf (r.w 0) 0 && !x.writing)).mergeSort
      (fun a b => decide (a.index ≤ b.index))
    answers r (word l.length :: l.map Slot.handle) d s

/-- KEY_PUBLIC: the program of the key's type starts on the slot's private key (R401). -/
def effKeyPublic : HostEffect where
  op := 0x0314
  row := .keyPublic
  pre r d := r.tenant != 0xFF && r.sized 1 && pkGoes r d && (useSlot r (r.w 0) none (unready r d)).isOk
    && slotType (orElse (useSlot r (r.w 0) none (unready r d)) ({}, d)).1.ktype
    && !isAes (orElse (useSlot r (r.w 0) none (unready r d)) ({}, d)).1.ktype
    && progFits r (genProg (orElse (useSlot r (r.w 0) none (unready r d)) ({}, d)).1.ktype) (orElse (useSlot r (r.w 0) none (unready r d)) ({}, d)).2
  out r d s :=
    let x := orElse (useSlot r (r.w 0) none (unready r d)) ({}, d)
    pkStarts r [genProg x.1.ktype] (some x.1.ref) (.keyPublic x.1.ktype x.1.material) x.2 s

def effFlaconEpochAdvance : HostEffect where
  op := 0x0307
  row := .flaconEpochAdvance
  pre r d := r.tenant != 0xFF && r.len == 0 && liveEpoch d r.tenant != 0xFFFF && !epochPending d r.tenant
  out r d s := goesOn r { d with nvm := { d.nvm with
    writes := d.nvm.writes ++ [{ req := some r, effect := .epoch r.tenant (liveEpoch d r.tenant + 1) }] } } s

/-- A new long operation of a command and its ACCEPTED reply (R262). -/
def accepts (r : Req) (kind total : Nat) (data : LongData) (extra : List Word) (d : Dev) (s : State) : Out :=
  let p := addLong { kind := kind, tenant := r.tenant, state := .running, total := total, gen := d.pat.gen, origin := r.origin
                     deadline := r.deadline, cmd := r.id, data := data } d
  ends St.accepted r (acceptedWord kind p.1 :: extra) (6 * (1 + extra.length)) p.2 s

def effFlaconRewrap : HostEffect where
  op := 0x0305
  row := .flaconRewrap
  pre r _ := r.tenant != 0xFF && r.sized 2 && onlyBits (r.w 0) [(39, 32)]
  out r d s := accepts r 2 0 (.rewrap (BitVec.ofNat 8 (r.f 0 39 32)) (r.w 1)) [] d s

/-- The rewrap operation that a chunk names, when it is the tenant's and runs. -/
def rewrapOf (r : Req) (d : Dev) : Option (LongOp × Byte × Word) :=
  match needLong r (r.f 0 23 0) 2 d with
  | .ok l => (match l.data with
    | .rewrap m c => if longRunning l then some (l, m, c) else none
    | _ => none)
  | .error _ => none

/-- A chunk's flacons in turn, each a suspension point; the reply that ends the operation is its final one (R268, R320, R338). -/
def effFlaconRewrapChunk : HostEffect where
  op := 0x0306
  row := .flaconRewrapChunk
  pre r d := r.tenant != 0xFF && r.f 0 47 40 != 0 && r.sizedMin 2 && onlyBits (r.w 0) [(47, 40), (24, 24), (23, 0)]
    && (rewrapOf r d).isSome && d.sym.randomOk
  out r d s := match rewrapOf r d with
    | none => .next s
    | some (l, m, c) =>
      let n := r.f 0 47 40
      let p := rewrapAll r l.handle m c n (r.words.drop 1) d
      let ws := mkWord [(47, 40, n)] :: p.1.map (fun o => mkWord [(47, 40, o.1.toNat), (15, 0, o.2.length)]) ++ p.1.flatMap (·.2)
      match (longAt p.2 l.handle).filter (fun x => bitOf (r.w 0) 24 && longRunning x) with
      | some x => answersIn x.gen r ws (6 * ws.length) (finishLong l.handle .done St.ok p.2) s
      | none => answers r ws p.2 s

-- Classes 0x04 and 0x05

/-- The IV that dispatch settles for a job, with the device after a nonce is drawn. -/
def ivNow (r : Req) (s : Slot) (a : CipherArgs) (d : Dev) : Option (List Byte × Dev) :=
  match drawIv r s a d with
  | .ok (.use iv d) => some (iv, d)
  | _ => none

/-- What a cipher command binds: its parameter block, its slot, its IV and the device after the draw (R302, R321, R345). -/
def cipherPins (r : Req) (op : Nat) (d : Dev) : Option (CipherArgs × Slot × List Byte × Dev) :=
  match cipherArgs r op d with
  | .error _ => none
  | .ok a =>
    match useSlot r (r.w 0) (some (modeUsage a.mode a.dec)) d with
    | .error _ => none
    | .ok (s, d) => (ivNow r s a d).map (fun p => (a, s, p.1, p.2))

/-- Lanes serve, and at their level (R383, R385). -/
def lanesReady (d : Dev) (level : Nat) : Bool := (List.range 9).any (fun l => laneServes d l) && (level == 0 || d.sym.randomOk)

/-- A cipher command with a free lane pins its key and IV and starts on the lane (R244, R321, R342). -/
def effCipher (op : Nat) (row : Req → Instr) : HostEffect where
  op := op
  row := row
  pre r d := r.tenant != 0xFF && canDispatch d r && (cipherPins r op d).any (fun x => lanesReady d (levelOf d r.gen x.1.level))
  out r d s := match cipherPins r op d with
    | some (a, sl, iv, e) => goesOn r (placeJob { req := r, slot := sl.ref, key := sl.material, mode := a.mode, dec := a.dec, iv := iv
                                                  aad := a.aad, data := a.data, tag := a.tag, tlen := a.tlen
                                                  level := levelOf d r.gen a.level } e) s
    | none => .next s

/-- STREAM_OPEN pins its key and IV; release of unverified plaintext needs the tenant's right and the slot's flag (R363, R368). -/
def effStreamOpen : HostEffect where
  op := 0x0410
  row := .streamOpen
  pre r d := r.tenant != 0xFF && (cipherPins r 0x0410 d).any (fun x => lanesReady d (levelOf d r.gen x.1.level)
    && (!x.1.release || (hasRight d r 4 && x.2.1.streamRel)))
  out r d s := match cipherPins r 0x0410 d with
    | some (a, sl, iv, e) => accepts r 4 0 (.stream { slot := sl.ref, key := sl.material, mode := a.mode, dec := a.dec
                                                      level := levelOf d r.gen a.level, tlen := a.tlen, iv := iv, aad := a.aad
                                                      total := a.dlen, release := a.release }) (fitW 3 (bytesWords iv)) e s
    | none => .next s

/-- The running stream that a chunk names. -/
def cipherStreamOf (r : Req) (d : Dev) : Option (LongOp × StreamOp) :=
  match needLong r (r.f 0 23 0) 4 d with
  | .ok l => (match l.data with
    | .stream x => if longRunning l then some (l, x) else none
    | _ => none)
  | .error _ => none

/-- A chunk that keeps the rules of its stream: whole blocks but at the end, the tag only with the last chunk (R366, R388). -/
def chunkOk (r : Req) (x : StreamOp) : Bool :=
  let last := bitOf (r.w 0) 24
  let n := r.f 1 39 0
  (last || n % 16 == 0) && (if last && x.dec then allZero ((r.bytesFrom 2 18).drop x.tlen) else allZero (r.bytesFrom 2 18))
    && (x.mode != Mode.ctr || x.total != 0 || decide (beNat x.iv + ceilDiv (x.data.length + n) 16 ≤ 2 ^ 128))
    && (x.mode != Mode.gcm || decide (x.data.length + n ≤ 2 ^ 36 - 32))

def effStreamChunk : HostEffect where
  op := 0x0411
  row := .streamChunk
  pre r d := r.tenant != 0xFF && canDispatch d r && !chunkInWork d (BitVec.ofNat 24 (r.f 0 23 0))
    && onlyBits (r.w 0) [(24, 24), (23, 0)] && onlyBits (r.w 1) [(39, 0)]
    && decide (30 + r.f 1 39 0 ≤ r.len) && decide (r.len ≤ 30 + 6 * ceilDiv (r.f 1 39 0) 6)
    && allZero ((wordsBytes (r.words.drop 5)).drop (r.f 1 39 0))
    && (cipherStreamOf r d).any (fun x => chunkOk r x.2 && lanesReady d x.2.level)
  out r d s := match cipherStreamOf r d with
    | some (l, x) => goesOn r (placeJob { req := r, slot := x.slot, key := x.key, mode := x.mode, dec := x.dec, iv := x.iv
                                          data := (wordsBytes (r.words.drop 5)).take (r.f 1 39 0), tag := (r.bytesFrom 2 18).take x.tlen
                                          tlen := x.tlen, level := x.level, stream := some l.handle, last := bitOf (r.w 0) 24 } d) s
    | none => .next s

def effHash : HostEffect where
  op := 0x0501
  row := .hash
  pre r d := r.tenant != 0xFF && digestLen (r.f 0 47 40) != 0 && decide (6 + r.f 0 39 0 ≤ r.len)
    && decide (r.len ≤ 6 + 6 * ceilDiv (r.f 0 39 0) 6) && allZero ((wordsBytes (r.words.drop 1)).drop (r.f 0 39 0)) && hashServes d
  out r d s := answers r (word (digestLen (r.f 0 47 40)) ::
    bytesWords (digest (r.f 0 47 40) ((wordsBytes (r.words.drop 1)).take (r.f 0 39 0)))) d s

def effHashStreamOpen : HostEffect where
  op := 0x0510
  row := .hashStreamOpen
  pre r d := r.tenant != 0xFF && r.sized 1 && onlyBits (r.w 0) [(47, 40)] && digestLen (r.f 0 47 40) != 0 && hashServes d
  out r d s := accepts r 4 0 (.hashStream (r.f 0 47 40) []) [] d s

/-- The running hash stream that a chunk names: handle, generation, algorithm, bytes so far. -/
def hashStreamOf (r : Req) (d : Dev) : Option (BitVec 24 × Nat × Nat × List Byte) :=
  match needLong r (r.f 0 23 0) 4 d with
  | .ok l => (match l.data with
    | .hashStream a old => if longRunning l then some (l.handle, l.gen, a, old) else none
    | _ => none)
  | .error _ => none

def effHashStreamChunk : HostEffect where
  op := 0x0511
  row := .hashStreamChunk
  pre r d := r.tenant != 0xFF && onlyBits (r.w 0) [(24, 24), (23, 0)] && onlyBits (r.w 1) [(39, 0)]
    && decide (12 + r.f 1 39 0 ≤ r.len) && decide (r.len ≤ 12 + 6 * ceilDiv (r.f 1 39 0) 6)
    && allZero ((wordsBytes (r.words.drop 2)).drop (r.f 1 39 0)) && hashServes d && (hashStreamOf r d).isSome
  out r d s := match hashStreamOf r d with
    | none => .next s
    | some (h, g, alg, old) =>
      let all := old ++ (wordsBytes (r.words.drop 2)).take (r.f 1 39 0)
      let e := modLong h (fun l => { l with units := l.units + 1, data := .hashStream alg all }) d
      let ws := word (digestLen alg) :: bytesWords (digest alg all)
      if bitOf (r.w 0) 24 then answersIn g r ws (6 * ws.length) (finishLong h .done St.ok e) s
      else answers r [0] (suspensionPoint h e) s

-- Class 0x06

def verifyWork (r : Req) : PkWork :=
  let pl := r.f 1 47 32
  let i1 := 2 + wordsOf pl
  let i2 := i1 + wordsOf (r.f 1 31 16)
  let i3 := i2 + wordsOf (r.f 0 23 16)
  .verify (r.f 0 47 40) (r.bytesFrom 2 pl) (r.bytesFrom i1 (r.f 1 31 16)) (r.bytesFrom i2 (r.f 0 23 16)) (r.bytesFrom i3 (r.f 0 39 24)) (r.f 1 7 0)

def effPkVerify : HostEffect where
  op := 0x0602
  row := .pkVerify
  pre r d :=
    let sc := r.f 0 47 40
    let i1 := 2 + wordsOf (r.f 1 47 32)
    let i2 := i1 + wordsOf (r.f 1 31 16)
    let i3 := i2 + wordsOf (r.f 0 23 16)
    r.tenant != 0xFF && onlyBits (r.w 0) [(47, 16)] && onlyBits (r.w 1) [(47, 16), (7, 0)]
      && inputOk sc (r.f 0 39 24) && verifyLens sc (r.f 1 47 32) (r.f 1 31 16) && saltOk sc (r.f 1 7 0) && (sc == 9 || r.f 0 23 16 == 0)
      && operandOk r 2 (r.f 1 47 32) && operandOk r i1 (r.f 1 31 16) && operandOk r i2 (r.f 0 23 16) && tailOk r i3 (r.f 0 39 24) && pkGoes r d
  out r d s := pkStarts r [progOf r] none (verifyWork r) (unready r d) s

/-- The key a signing or agreement command pins. -/
def pkKey (r : Req) (flacon : List Word) (kt usage : Nat) (d : Dev) : Option (List Byte × Option SlotRef × Dev) :=
  match pinKey r flacon kt usage d with
  | .ok x => some x
  | .error _ => none

/-- PK_SIGN, with its key in a slot or in the flacon it carries. -/
def effPkSign : HostEffect where
  op := 0x0601
  row := .pkSign
  pre r d :=
    let sc := r.f 1 47 40
    let fl := r.f 1 15 0
    r.tenant != 0xFF && decide (1 ≤ sc) && decide (sc ≤ 8) && inputOk sc (r.f 1 39 24) && saltOk sc (r.f 1 23 16)
      && (r.w 0 == 0) == (fl != 0) && (r.w 0 == 0 || !isRsa sc) && tailOk r (2 + fl) (r.f 1 39 24) && pkGoes r d
      && (pkKey r (slice r.words 2 fl) (schemeType sc) Usage.sign (unready r d)).any (fun x => progFits r (progOf r) x.2.2)
  out r d s :=
    let sc := r.f 1 47 40
    let fl := r.f 1 15 0
    match pkKey r (slice r.words 2 fl) (schemeType sc) Usage.sign (unready r d) with
    | some (k, slot, e) => pkStarts r [progOf r] slot (.sign sc k (r.bytesFrom (2 + fl) (r.f 1 39 24)) (r.f 1 23 16)) e s
    | none => .next s

/-- What PK_AGREE binds at dispatch: the index and the room of output mode 0x02, then the private key (R422, R423). -/
def agreeNeeds (r : Req) (d : Dev) : Res (Nat × List Byte × Option SlotRef × Dev) := do
  let i ← if r.f 1 39 32 == 2 then volatileTarget r (r.f 2 39 28) d else .ok 0
  let _ ← if r.f 1 39 32 == 2 then needEntry r 1 (dropSlot r.tenant i d) else .ok d
  if r.f 1 47 40 == 5 then .ok (i, [], none, d)
  else
    let (k, slot, d) ← pinKey r (slice r.words 12 (r.f 1 15 0)) (agreeType (r.f 1 47 40)) Usage.agree d
    .ok (i, k, slot, d)

/-- PK_AGREE in both output modes; mode 0x01 sends the secret back and asks for an encrypted frame (R422). -/
def effPkAgree : HostEffect where
  op := 0x0603
  row := .pkAgree
  pre r d :=
    let alg := r.f 1 47 40
    let fl := r.f 1 15 0
    r.tenant != 0xFF && decide (1 ≤ alg) && decide (alg ≤ 5) && r.f 1 31 16 == peerLen alg && (r.f 1 39 32 == 1 || r.f 1 39 32 == 2)
      && tailOk r (12 + fl) (r.f 1 31 16) && (if alg == 5 then r.w 0 == 0 && fl == 0 else (r.w 0 == 0) == (fl != 0) && (r.w 0 == 0 || alg != 4))
      && (if r.f 1 39 32 == 1 then r.enc && (slice r.words 2 10).all (· == 0)
        else onlyBits (r.w 2) [(39, 28)] && !isPersistent (r.f 2 39 28) && descOk (r.w 3) && isAes (descType (r.w 3)))
      && pkGoes r d && (agreeNeeds r (unready r d)).isOk
      && progFits r (progOf r) (orElse (agreeNeeds r (unready r d)) (0, [], none, d)).2.2.2
  out r d s :=
    let x := orElse (agreeNeeds r (unready r d)) (0, [], none, d)
    let peer := r.bytesFrom (if r.f 1 47 40 == 5 then 12 else 12 + r.f 1 15 0) (r.f 1 31 16)
    pkStarts r [progOf r] x.2.2.1 (.agree (r.f 1 47 40) (r.f 1 39 32) x.2.1 peer x.1 (r.w 3) (slice r.words 4 8)) x.2.2.2 s

/-- PK_KEM_PUBLIC of the seed in the flacon it carries (R314, R421). -/
def effPkKemPublic : HostEffect where
  op := 0x0604
  row := .pkKemPublic
  pre r d :=
    let fl := r.f 0 15 0
    r.tenant != 0xFF && onlyBits (r.w 0) [(15, 0)] && r.sized (1 + fl) && fld (wd (slice r.words 1 fl) 0) 31 24 == 0x21 && pkGoes r d
      && (unwrapFlacon r (slice r.words 1 fl) (unready r d)).isOk
      && progFits r (progOf r) (orElse (unwrapFlacon r (slice r.words 1 fl) (unready r d)) ([], d)).2
  out r d s :=
    let x := orElse (unwrapFlacon r (slice r.words 1 (r.f 0 15 0)) (unready r d)) ([], d)
    pkStarts r [progOf r] none (.kemPublic x.1) x.2 s

/-- RSA_KEYGEN is an operation that holds the slots of its last program; it is queued, and its programs start when an engine is free
(R266, R410). -/
def rsaTemplate (r : Req) (d : Dev) : List Word := template (r.words.drop 1) (liveEpoch d r.tenant) 1280

def rsaTakes (r : Req) (d : Dev) : Bool :=
  let n := progSlots 0x14 (partOf d r).2
  r.tenant != 0xFF && r.sized 7 && r.w 0 == 0 && fld (wd (rsaTemplate r d) 0) 39 32 == r.tenant.toNat && headerOk 1 (rsaTemplate r d)
    && fld (wd (rsaTemplate r d) 0) 31 24 == 0x20 && fld (wd (rsaTemplate r d) 0) 23 16 == 0x40 && anyEngine d && d.sym.randomOk
    && decide (n ≤ partSlots (partOf d r)) && slotsFree d r.tenant (partOf d r) n && operandRoom d (partOf d r) n

/-- The operation as it is accepted, before engines take its programs. -/
def rsaAccepted (r : Req) (d : Dev) : Dev :=
  let p := addLong { kind := 5, tenant := r.tenant, state := .queued, gen := d.pat.gen, origin := r.origin, deadline := r.deadline
                     cmd := r.id, data := .rsa { req := r, template := rsaTemplate r d, slots := progSlots 0x14 (partOf d r).2
                                                 part := partOf d r } } d
  conclude r St.accepted [acceptedWord 5 p.1] 6 p.2

def effRsaKeygen : HostEffect where
  op := 0x0610
  row := .rsaKeygen
  pre := rsaTakes
  out r d s := .next { s with dev := fillEngines 600 (rsaAccepted r d) }

/-- The result of a finished key generation of the tenant. -/
def rsaResult (r : Req) (d : Dev) : Option (List Word × List Byte) :=
  (longAt d (BitVec.ofNat 24 (r.f 0 23 0))).bind (fun l =>
    if l.tenant == r.tenant && l.kind == 5 && l.state == .done then
      (match l.data with
       | .rsa x => x.result
       | _ => none)
    else none)

def effRsaKeygenResult : HostEffect where
  op := 0x0611
  row := .rsaKeygenResult
  pre r d := r.tenant != 0xFF && r.sized 1 && onlyBits (r.w 0) [(23, 0)] && anyEngine d && (rsaResult r d).isSome
  out r d s := match rsaResult r d with
    | some (fl, n) => ends St.ok r (word 225 :: fitW 225 fl ++ bytesWords n) (6 * 226 + 512) d s
    | none => .next s

def effPkInfo : HostEffect where
  op := 0x0620
  row := .pkInfo
  pre r d := r.tenant != 0xFF && r.len == 0 && anyEngine d
  out r d s := answers r (mkWord [(47, 24, (Config.microcodeVersion (buildOf d 5)).toNat),
      (9, 8, flag (engineServes d 0) + flag (engineServes d 1)), (7, 0, 23)]
    :: programIds.map (fun p => mkWord [(47, 40, p), (31, 0, (Config.programCycles p).toNat)])) d s

-- Class 0x07

/-- Where an append's record goes: its words in phase 1, or into the summary (R445, R464). -/
def appendOf (r : Req) (d : Dev) : Appended × Dev :=
  let p := (appendFields r d.now).getD ([], [])
  appendAt (r.f 0 47 40) d.time.quality.code 0 (stamp d p.1) (.bits (byteBits p.2)) d

/-- Records of type 0x70 that the tenant has appended today (R457). -/
def usedToday (r : Req) (d : Dev) : Nat :=
  let st := statOf d r.tenant
  if st.recDay == d.now / 353894400 then st.recCount else 0

def effJournalAppend : HostEffect where
  op := 0x0701
  row := .journalAppend
  pre r d := mayAppend d r && (journalTakes (r.f 0 47 40) d).isOk && onlyBits (r.w 0) [(47, 40)] && (appendFields r d.now).isSome
    && (r.f 0 47 40 != 0x70 || (decide (usedToday r d < quotaOf d r recRecords) && decide (mainFill d < 418)))
    && (match (appendOf r d).1 with
      | .closed => false
      | _ => true)
  out r d s :=
    let t := r.f 0 47 40
    let vals := stamp d ((appendFields r d.now).getD ([], [])).1
    match appendOf r d with
    | (.closed, _) => .next s
    | (.summarised, _) => goesOn r { d with nvm := { d.nvm with writes := d.nvm.writes ++ [{ req := some r, effect := .summary t vals }] } } s
    | (.written main pos seq, e) =>
      let e := if t == 0x70 then modStat r.tenant (fun x => { x with recDay := d.now / 353894400, recCount := usedToday r d + 1 }) e else e
      let e := logAt Core.sec 85 (mkWord [(47, 40, if main then 1 else 2), (7, 0, t)]) seq false e
      let x : OpenRecord := { main := main, position := pos, rtype := t, fields := vals, seq := seq, tq := d.time.quality.code }
      goesOn r { e with nvm := { e.nvm with writes := e.nvm.writes ++ [{ req := some r, effect := .record x }] } } s

/-- The keys and segments of an export (R458). -/
def exportKey (r : Req) (d : Dev) : Option (Slot × Dev) :=
  match useSlot r (r.w 3) (some Usage.encrypt) d with
  | .ok (k, e) => if k.ktype == 3 then some (k, e) else none
  | .error _ => none

def effJournalExport : HostEffect where
  op := 0x0710
  row := .journalExport
  pre r d := isEvidenceTenant r && r.sized 4 && onlyBits (r.w 0) [(47, 40)] && (r.f 0 47 40 == 1 || r.f 0 47 40 == 2)
    && rangeClosed d (r.f 0 47 40 == 1) (r.w 1) (r.w 2) && (exportKey r d).isSome
  out r d s := match exportKey r d with
    | none => .next s
    | some (k, e) =>
      let n := draw e
      let a := (r.w 1).toNat
      let b := (r.w 2).toNat
      accepts r 1 (b + 1 - a) (.exportOf { main := r.f 0 47 40 == 1, first := a, next := a, last := b, nonce := n.1, key := k.material
                                           slot := k.ref }) [n.1] n.2 s

def effExportChunk : HostEffect where
  op := 0x0711
  row := .exportChunk
  pre r d := isEvidenceTenant r && r.sized 1 && onlyBits (r.w 0) [(47, 40), (23, 0)] && decide (1 ≤ r.f 0 47 40)
    && decide (r.f 0 47 40 ≤ chunkLimit r) && (match needLong r (r.f 0 23 0) 1 d with
      | .ok l => longRunning l
      | .error _ => false)
  out r d s :=
    let l := orElse (needLong r (r.f 0 23 0) 1 d) {}
    let x := exportChunks (r.f 0 47 40) l.handle d
    let ws := word x.2.1 :: x.1
    match longAt x.2.2 l.handle with
    | some m => if m.state == .done then answersIn m.gen r ws (6 * ws.length) x.2.2 s else answers r ws x.2.2 s
    | none => answers r ws x.2.2 s

/-- A receipt whose signatures, range and trailer agree with what the device exported (R460). -/
def receiptFits (r : Req) (d : Dev) : Bool :=
  let main := r.f 0 39 32 == 1
  let old := if main then d.jrn.receipted else d.jrn.receiptedTamper
  receiptSigned d r && r.w 11 == d.shadow 2 && r.w 12 == d.shadow 3 && decide ((r.w 1).toNat ≤ (old.map (· + 1)).getD 0)
    && rangeClosed d main (r.w 1) (r.w 2) && rangeExported d main (r.w 1).toNat (r.w 2).toNat
    && slice r.words 3 8 == trailerOf d main (r.w 2).toNat

/-- RECEIPT_SUBMIT: a receipt that fits moves the receipted ordinal up and is recorded; any other is RECEIPT_INVALID. -/
def effReceiptSubmit : HostEffect where
  op := 0x0720
  row := .receiptSubmit
  pre r d := r.tenant == 0 && r.inSession && r.sized (15 + (if bitOf (r.w 14) 0 then 32 else 0) + (if bitOf (r.w 14) 1 then 878 else 0))
    && onlyBits (r.w 14) [(1, 0)] && onlyBits (r.w 0) [(47, 32)] && r.f 0 47 40 == 1 && (r.f 0 39 32 == 1 || r.f 0 39 32 == 2) && anyEngine d
    && engineIdle d
  out r d s :=
    let st := r.f 0 39 32
    let b := (r.w 2).toNat
    if receiptFits r d then
      answers r [] (secRecord 0x41 [st, (r.w 1).toNat, b] { d with jrn :=
        if st == 1 then { d.jrn with receipted := some (max b (d.jrn.receipted.getD 0)) }
        else { d.jrn with receiptedTamper := some (max b (d.jrn.receiptedTamper.getD 0)) } }) s
    else refused St.receiptInvalid r d s

def effJournalStatus : HostEffect where
  op := 0x0702
  row := .journalStatus
  pre r _ := isEvidenceTenant r && r.len == 0
  out r d s := answers r [d.jrn.main.nextSeq, d.jrn.tamper.nextSeq,
    mkWord [(47, 40, flag d.jrn.pressure + 2 * flag (decide (418 ≤ mainFill d)) + 4 * flag (decide (0 < inUse d 24 48))
        + 8 * flag (!d.jrn.summary.isEmpty) + 16 * flag d.jrn.sealed),
      (39, 30, inUse d 72 440), (29, 24, inUse d 24 48), (23, 16, inUse d 0 24), (15, 0, stubUnits d)],
    (d.jrn.main.cur.map (fun o => word o.ordinal)).getD (BitVec.allOnes 48),
    (d.jrn.receipted.map word).getD (BitVec.allOnes 48), oldestMain d] d s

def effJournalHead : HostEffect where
  op := 0x0703
  row := .journalHead
  pre r _ := isEvidenceTenant r && r.len == 0
  out r d s := answers r (headBlock d ++ bytesWords (sha384 (tagJ 0x44 ++ wordsBytes (headBlock d)))) d s

def effSegmentRead : HostEffect where
  op := 0x0712
  row := .segmentRead
  pre r d :=
    let free := d.lifecycle == .returned || d.lifecycle == .scorched
    ((free && r.tenant == 0xFF) || isEvidenceTenant r) && (free || r.enc) && r.sized 2 && onlyBits (r.w 0) [(47, 40)]
      && (r.f 0 47 40 == 1 || r.f 0 47 40 == 2) && (segmentContent d (r.f 0 47 40 == 1) (r.w 1).toNat).isSome
  out r d s :=
    let c := (segmentContent d (r.f 0 47 40 == 1) (r.w 1).toNat).getD (0, [])
    answers r (word c.1 :: c.2) d s

def effTraceRead : HostEffect where
  op := 0x0730
  row := .traceRead
  pre r _ := isEvidenceTenant r && r.sized 1 && onlyBits (r.w 0) [(15, 0)]
  out r d s :=
    let vs := slice d.jrn.vertices (r.f 0 15 0) 4096
    answers r ([word ((d.jrn.traceAt - traceSpan d.jrn.vertices) * 4096), mkWord [(31, 16, vs.length), (15, 0, d.jrn.vertices.length)]]
      ++ (chunksOf 2 (ceilDiv vs.length 2) vs).map (fun p => mkWord [(47, 24, (p.getD 0 0).toNat), (23, 0, (p.getD 1 0).toNat)])) d s

-- Classes 0x08 and 0x09

def effTimeRead : HostEffect where
  op := 0x0801
  row := .timeRead
  pre r _ := r.tenant != 0xFF && r.len == 0
  out r d s := answers r [d.time.tick, d.time.offset,
      mkWord [(47, 46, d.time.quality.code), (39, 16, d.time.corrections.toNat), (0, 0, flag (d.time.fired.contains r.tenant))],
      if r.tenant == 1 then mkWord [(47, 24, 245760 - budgetUsed d)] else 0, word (uncertainty d.time)]
    { d with time := { d.time with fired := d.time.fired.filter (· != r.tenant) } } s

/-- A step of TIME_ADJUST that the budget or a leap second allows (R80, R81). -/
def adjustOk (r : Req) (d : Dev) : Bool :=
  let delta := sInt (r.w 0)
  let leap := bitOf (r.w 1) 0
  r.sized 2 && onlyBits (r.w 1) [(0, 0)] && (!leap || delta.natAbs == 4096) && decide ((sInt d.time.offset + delta).natAbs ≤ 2 ^ 40)
    && ((leap && decide (leapsUsed d < 2)) || delta == 0 || decide (budgetUsed d + delta.natAbs ≤ 245760))

/-- Time may be changed: neither frozen in a succession, DEPARTED nor SCORCHED (R107). -/
def timeOpen (d : Dev) : Bool := d.succ.state != 1 && d.lifecycle != .departed && d.lifecycle != .scorched

/-- The change of the legal-time offset that a commit will make (R84). -/
def offsetWrite (r : Req) (x : Int) (path : Nat) (confirm : Bool) (d : Dev) (s : State) : Out :=
  goesOn r { d with nvm := { d.nvm with
    writes := d.nvm.writes ++ [{ req := some r, effect := .offset (intWord x) path confirm r.tenant }] } } s

def effTimeAdjust : HostEffect where
  op := 0x0802
  row := .timeAdjust
  pre r d := r.tenant == 1 && timeOpen d && adjustOk r d && (sInt (r.w 0) == 0 || !offsetPending d)
  out r d s :=
    if sInt (r.w 0) == 0 then answers r [d.time.offset] d s
    else offsetWrite r (sInt d.time.offset + sInt (r.w 0)) (flag (bitOf (r.w 1) 0 && decide (leapsUsed d < 2))) false d s

def effTimeAuthChallenge : HostEffect where
  op := 0x0803
  row := .timeAuthChallenge
  pre r _ := (r.tenant == 1 || r.tenant == 0xFE) && r.len == 0
  out r d s := answers r [Config.rand d.rnd, Config.rand (d.rnd + 1)]
    { d with rnd := d.rnd + 2, time := { d.time with nonce := some (Config.rand d.rnd, Config.rand (d.rnd + 1), d.now + 2457600) } } s

/-- TIME_AUTH_ADJUST: a good block that changes the offset starts its commit, one that changes nothing answers it, any other is
AUTH_FAIL; the nonce is used up in each case (R86-R88). -/
def effTimeAuthAdjust : HostEffect where
  op := 0x0804
  row := .timeAuthAdjust
  pre r d := (r.tenant == 1 || r.tenant == 0xFE) && r.sized 15 && (r.bytesFrom 4 66).drop 64 == [0, 0]
    && decide ((sInt d.time.offset + sInt (r.w 2)).natAbs ≤ 2 ^ 40) && !offsetPending d && anyEngine d && engineIdle d
    && d.cmds.all (fun x => x != r)
  out r d s :=
    let used (x : Dev) : Dev := { x with time := { x.time with nonce := none } }
    let y : Dev :=
      if !authOk d r then complete r St.authFail [] 0 d
      else if r.w 2 == 0 then conclude r St.ok [d.time.offset] 6 d
      else dropStaged r.id true { d with nvm := { d.nvm with
        writes := d.nvm.writes ++ [{ req := some r, effect := .offset (intWord (sInt d.time.offset + sInt (r.w 2))) 3 false r.tenant }] } }
    .next { s with dev := used y }

/-- How far the recorder's legal time is ahead of the device's. -/
def legalAhead (r : Req) (d : Dev) : Int := (r.w 0).toNat - (d.now + sInt d.time.offset)

/-- TIME_CONFIRM reports while CONFIRMED; while UNCONFIRMED its apply option moves the tick forward or the offset back; while
UNCERTAIN a time within the bound confirms, one outside it is only reported. On RC nothing confirms (R79, R114, R115). -/
def effTimeConfirm : HostEffect where
  op := 0x0805
  row := .timeConfirm
  pre r d :=
    let x := legalAhead r d
    r.tenant == 1 && timeOpen d && r.sized 2 && onlyBits (r.w 1) [(0, 0)] && decide (-(2 : Int) ^ 47 ≤ x) && decide (x < (2 : Int) ^ 47)
      && decide ((sInt d.time.offset + x).natAbs ≤ 2 ^ 40) && decide ((d.now : Int) + x < (2 : Int) ^ 48) && !offsetPending d
  out r d s :=
    let x := legalAhead r d
    let apply := bitOf (r.w 1) 0
    let sure (e : Dev) : Dev := { e with time := { e.time with quality := .confirmed, rcTicks := 0 } }
    let report := answers r [intWord x] d s
    match d.time.quality with
    | .confirmed => report
    | .unconfirmed =>
      if !apply then report
      else if d.time.onRc then .next { s with dev := refuseWith r St.policyRefused 0 d }
      else if x < 0 then offsetWrite r (sInt d.time.offset + x) 2 true d s
      else if x == 0 then answers r [intWord x] (sure d) s
      else answers r [intWord x] (timeRecord 4 r.tenant d.time.offset d.time.offset x.toNat (sure (skipBuckets d.now (d.now + x.toNat)
        { d with time := { d.time with tick := word (d.now + x.toNat) } }))) s
    | .uncertain =>
      if decide (x.natAbs ≤ uncertainty d.time) && !d.time.onRc then
        if x == 0 then answers r [intWord x] (sure d) s
        else if apply then offsetWrite r (sInt d.time.offset + x) 2 true d s
        else report
      else if apply then .next { s with dev := refuseWith r St.policyRefused 0 d }
      else report

/-- TIME_ALARM_SET sets, replaces or removes the tenant's alarm; one that is due fires at once (R118). -/
def effTimeAlarmSet : HostEffect where
  op := 0x0806
  row := .timeAlarmSet
  pre r _ := r.tenant != 0xFF && r.sized 1
  out r d s :=
    let l := d.time.alarms.filter (fun x => x.1 != r.tenant)
    let e : Dev := { d with time := { d.time with alarms := l } }
    if r.w 0 == 0 then answers r [] e s
    else if (r.w 0).toNat ≤ d.now then answers r [] (fireAlarm r.tenant e) s
    else answers r [] { d with time := { d.time with alarms := l ++ [(r.tenant, (r.w 0).toNat)] } } s

def effDistanceRead : HostEffect where
  op := 0x0810
  row := .distanceRead
  pre r _ := r.tenant != 0xFF && r.len == 0
  out r d s := answers r [d.dist.pulses, d.distance, mkWord [(47, 24, d.dist.speed), (23, 22, flag d.dist.moving),
    (21, 21, flag d.dist.implausible), (20, 20, flag d.dist.conflict)], word d.dist.k] d s

def effGnssFeed : HostEffect where
  op := 0x0811
  row := .gnssFeed
  pre r d := hasRight d r 0 && r.sized 1 && onlyBits (r.w 0) [(47, 16)] && decide (r.f 0 47 24 ≤ 76800) && decide (r.f 0 23 16 ≤ 3)
  out r d s :=
    let x : DistState := match d.dist.gnss with
      | none => { d.dist with gnss := some (r.f 0 47 24, r.start) }
      | some (_, u) => if r.start < u then d.dist else
        { d.dist with gnss := some (r.f 0 47 24, r.start), disagree := if u + 20480 < r.start then 0 else d.dist.disagree }
    answers r [] (if 2 ≤ r.f 0 23 16 then { d with dist := x } else d) s

def effCounterAllocate : HostEffect where
  op := 0x0901
  row := .counterAllocate
  pre r d :=
    let t : Byte := BitVec.ofNat 8 (r.f 0 47 40)
    r.tenant == 0 && r.inSession && rangeOk r && t != 0xFF && (d.tenant d.pat.gen t).isSome
      && (List.range (r.f 0 27 16 + 1)).all (fun i =>
        (counterAt d.time.counters (r.f 0 39 28 + i)).holder == 0xFF || (counterAt d.time.counters (r.f 0 39 28 + i)).holder == t)
  out r d s := answers r [] (modCounters (r.f 0 39 28) (r.f 0 27 16 + 1) (fun c => { c with holder := BitVec.ofNat 8 (r.f 0 47 40) }) d) s

def effCounterRelease : HostEffect where
  op := 0x0902
  row := .counterRelease
  pre r _ := r.tenant == 0 && r.inSession && rangeOk r
  out r d s := answers r [] (modCounters (r.f 0 39 28) (r.f 0 27 16 + 1) (fun c => { c with holder := 0xFF }) d) s

/-- The tenant holds the counter the command names (R99). -/
def holds (r : Req) (d : Dev) : Bool := r.tenant != 0xFF && (counterAt d.time.counters (r.f 0 11 0)).holder == r.tenant

def effCounterRead : HostEffect where
  op := 0x0903
  row := .counterRead
  pre r d := holds r d && r.sized 1 && onlyBits (r.w 0) [(11, 0)]
  out r d s := answers r [(counterAt d.time.counters (r.f 0 11 0)).value] d s

def effCounterIncrement : HostEffect where
  op := 0x0904
  row := .counterIncrement
  pre r d :=
    let v := (counterAt d.time.counters (r.f 0 11 0)).value
    holds r d && r.sized 3 && onlyBits (r.w 0) [(47, 47), (11, 0)] && decide (1 ≤ (r.w 1).toNat) && decide ((r.w 1).toNat ≤ 2 ^ 32)
      && !counterPending d && !earlierIncrement r d && (!bitOf (r.w 0) 47 || v == r.w 2) && decide (v.toNat + (r.w 1).toNat < 2 ^ 48) && d.time.bucket != 0
  out r d s :=
    let v := (counterAt d.time.counters (r.f 0 11 0)).value
    goesOn r { d with
      time := { d.time with bucket := d.time.bucket - 1 }
      nvm := { d.nvm with writes := d.nvm.writes ++ [{ req := some r, effect := .counter (r.f 0 11 0) (v + r.w 1) }] } } s

-- Classes 0x0A and 0x0B

def effTamperStatus : HostEffect where
  op := 0x0A01
  row := .tamperStatus
  pre r _ := r.tenant != 0xFF && r.len == 0
  out r d s := answers r [tamperSummary d, if r.tenant == 0 || r.tenant == 1 || r.tenant == 0xFE then word d.tamper.holdEnd else 0] d s

def effTamperSources : HostEffect where
  op := 0x0A02
  row := .tamperSources
  pre r _ := (r.tenant == 0 || r.tenant == 1 || r.tenant == 0xFE) && r.len == 0
  out r d s := answers r ((List.range 29).map (fun i =>
    let x := srcState d i
    mkWord [(47, 46, srcLevel d i), (45, 44, srcPattern d i), (43, 42, srcMin d i), (41, 41, flag (srcDisabled d i)),
      (40, 40, flag x.confirmed), (39, 39, flag x.latch.isSome), (38, 38, flag x.responded), (31, 24, x.count), (23, 0, x.value.toNat)])) d s

def effTamperInject : HostEffect where
  op := 0x0A03
  row := .tamperInject
  pre r d := r.tenant == 0 && (d.lifecycle == .manufacture || d.isD) && r.sized 2 && onlyBits (r.w 0) [(5, 0)]
    && onlyBits (r.w 1) [(23, 0)] && decide (r.f 0 5 0 ≤ 28)
  out r d s := answers r [] (confirmSource (r.f 0 5 0) (b24 (r.w 1)) 8 d) s

def effAttestCert : HostEffect where
  op := 0x0B01
  row := .attestCert
  pre r d := r.sized 1 && onlyBits (r.w 0) [(7, 0)] && decide (r.f 0 7 0 ≤ 2) && (certAt d (r.f 0 7 0)).isSome
  out r d s :=
    let c := (certAt d (r.f 0 7 0)).getD []
    ends St.ok r (word c.length :: bytesWords c) (6 + c.length) d s

/-- The statement's allowance of R530 in the current window. -/
def statementsLeft (d : Dev) : Bool := d.att.window != d.now / 4096 || decide (d.att.statements < 8)

/-- The device after a statement of the window is taken. -/
def withStatement (d : Dev) : Dev :=
  let n := if d.att.window == d.now / 4096 then d.att.statements else 0
  let m := if d.att.window == d.now / 4096 then d.att.responses else 0
  { d with att := { d.att with window := d.now / 4096, statements := n + 1, responses := m } }

/-- A statement and its signature with device key 1, and with key 2 when it is hybrid (R520, R522, R523). -/
def effAttestStatement : HostEffect where
  op := 0x0B02
  row r := .attestStatement r true
  pre r d := !d.identityMarginal && r.sized 9 && onlyBits (r.w 0) [(0, 0)] && (!bitOf (r.w 0) 0 || d.att.cert1.isSome) && anyEngine d
    && engineIdle d && d.sym.randomOk && statementsLeft d && d.att.key.isSome
  out r d s :=
    let k := d.att.key.getD {}
    let e := withStatement d
    let body := statementBody e (bitOf (r.w 0) 0) (slice r.words 1 8)
    let msg := ascii [0x4B, 0x56, 0x34, 0x38, 0x35, 0x36, 0x41, 0x54] ++ wordsBytes body
    let x := makeSignature 2 k.ecPrivate (sha384 msg) 0 e
    let sig := fitW 16 (bytesWords x.1)
    if bitOf (r.w 0) 0 then
      let y := makeSignature 9 k.pqPrivate msg 0 x.2
      answers r (body ++ sig ++ fitW 552 (bytesWords y.1)) y.2 s
    else answers r (body ++ sig) x.2 s

/-- A statement whose signature fails its output check on both tries: the failures count against the engines (R536). -/
def effAttestStatementFails : HostEffect where
  op := 0x0B02
  row r := .attestStatement r false
  pre := effAttestStatement.pre
  out r d s := ends St.internalFault r [] 0 (statementFailed (withStatement d)) s

def responsesLeft (d : Dev) : Bool := d.att.window != d.now / 4096 || decide (d.att.responses < 32)

def withResponse (d : Dev) : Dev :=
  let n := if d.att.window == d.now / 4096 then d.att.statements else 0
  let m := if d.att.window == d.now / 4096 then d.att.responses else 0
  { d with att := { d.att with window := d.now / 4096, statements := n, responses := m + 1 } }

/-- The selected status words under the class secret's MAC; the reply waits for its fixed time (R525-R529). -/
def effChallengeRespond : HostEffect where
  op := 0x0B03
  row := .challengeRespond
  pre r d := r.sized 4 && onlyBits (r.w 0) [(47, 32), (3, 0)] && operandOk r 1 16 && responsesLeft d
    && (classEntry (d.image r.gen) (r.f 0 47 32)).isSome && baseReachable d && d.keys.derivationOk
  out r d s :=
    let e := (classEntry (d.image r.gen) (r.f 0 47 32)).getD []
    let x := withResponse d
    let body := responseBody x (r.f 0 47 32) (r.f 0 7 0)
    answers r (body ++ fitW 3 (bytesWords (responseMac (classSecret x e) (r.bytesFrom 1 16) body))) x s

/-- The factory makes the device keys once and seals DEVKEY (R517). -/
def effAttestKeygen : HostEffect where
  op := 0x0B10
  row := .attestKeygen
  pre r d := r.tenant == 0 && r.inSession && d.lifecycle == .manufacture && r.len == 0
    && !(List.range 8).any (fun i => d.shadow (0x20 + i) != 0) && fuseWindow d && anyEngine d && engineIdle d
    && d.sym.randomOk
  out r d s :=
    let b := drawBytes 56 d
    let q := drawBytes 32 b.2
    let ec := scalarFrom 0x11 b.1
    let k : DeviceKey := { ecPrivate := ec, ecPublic := publicKey 0x11 ec
                           pqPrivate := q.1, pqPublic := publicKey 0x22 q.1 }
    let x := ((bytesWords (sha384 k.ecPublic)).zipIdx).foldl (fun d x => sealWord (0x20 + x.2) x.1 d) { q.2 with att := { q.2.att with key := some k } }
    answers r (bytesWords k.ecPublic ++ bytesWords k.pqPublic) x s

/-- A certificate whose subject key is the device's is stored; another is PARAM_RANGE (R518). -/
def effAttestCertWrite : HostEffect where
  op := 0x0B11
  row := .attestCertWrite
  pre r d := r.tenant == 0 && r.inSession && d.lifecycle == .manufacture && onlyBits (r.w 0) [(31, 16), (7, 0)] && decide (r.f 0 7 0 ≤ 2)
    && decide (1 ≤ r.f 0 31 16) && decide (r.f 0 31 16 ≤ [2048, 8192, 4096].getD (r.f 0 7 0) 0) && tailOk r 1 (r.f 0 31 16)
  out r d s :=
    let c := r.bytesFrom 1 (r.f 0 31 16)
    if certFits d (r.f 0 7 0) c then answers r [] (setCert (r.f 0 7 0) c d) s else refused St.paramRange r d s

def effVerifierSecretExport : HostEffect where
  op := 0x0B12
  row := .verifierSecretExport
  pre r d := r.tenant == 0 && r.admin && r.enc && r.sized 1 && onlyBits (r.w 0) [(15, 0)]
    && (classEntry (d.image r.gen) (r.f 0 15 0)).isSome && baseReachable d && d.keys.derivationOk
  out r d s := ends St.ok r (bytesWords (classSecret d ((classEntry (d.image r.gen) (r.f 0 15 0)).getD []))) 36 d s

-- Class 0x0C

/-- The image a PATTERN_READ names, with its generation (R573). -/
def imageNamed (src : Nat) (d : Dev) : Option (List Word × Nat) :=
  if src == 1 then some (d.pat.image, d.pat.gen)
  else if src == 3 then some ((staged d).image, (staged d).base)
  else if src == 2 then (previousBank d).map (fun b => (b.image, b.gen)) else none

def effPatternRead : HostEffect where
  op := 0x0C01
  row := .patternRead
  pre r d := r.tenant == 0 && r.sized 1 && onlyBits (r.w 0) [(47, 40), (31, 0)]
    && (imageNamed (r.f 0 47 40) d).any (fun x => decide (r.f 0 31 16 + r.f 0 15 0 ≤ x.1.length))
  out r d s :=
    let x := (imageNamed (r.f 0 47 40) d).getD ([], 0)
    answers r (mkWord [(47, 24, x.2), (15, 0, x.1.length)] :: slice x.1 (r.f 0 31 16) (r.f 0 15 0)) d s

def effPatternWrite : HostEffect where
  op := 0x0C02
  row := .patternWrite
  pre r d :=
    let n := r.f 0 15 0
    r.tenant == 0 && r.sized (1 + n) && onlyBits (r.w 0) [(31, 0)] && n != 0 && decide (8 ≤ r.f 0 31 16) && decide (r.f 0 31 16 + n ≤ 480)
      && (List.range n).all (fun i => onlyBits (wd (slice r.words 1 n) i) (imageFields (r.f 0 31 16 + i))) && (staged d).edits != 0xFFFF
  out r d s :=
    let g := staged d
    let img := g.image.take (r.f 0 31 16) ++ slice r.words 1 (r.f 0 15 0) ++ g.image.drop (r.f 0 31 16 + r.f 0 15 0)
    let x := setAt img 15 (setFld (wd img 15) 39 32 (tenantCount g.image))
    answers r [word (g.edits + 1)] { d with pat := { d.pat with staging := some { g with image := x, edits := g.edits + 1 } } } s

def effPatternDiscard : HostEffect where
  op := 0x0C05
  row := .patternDiscard
  pre r _ := r.tenant == 0 && r.len == 0
  out r d s := answers r [] { d with pat := { d.pat with staging := none } } s

def effPatternInfo : HostEffect where
  op := 0x0C06
  row := .patternInfo
  pre r _ := r.tenant != 0xFF && r.len == 0
  out r d s :=
    let own := r.tenant == 0
    answers r ([mkWord [(47, 24, d.pat.gen), (23, 0, ((previousBank d).map (·.gen)).getD 0)], word d.pat.switched,
      mkWord [(47, 24, if own then (staged d).base else 0), (16, 16, flag d.pat.old.isSome), (15, 0, if own then (staged d).edits else 0)],
      word (24 - commitsToday d)] ++ fitW 8 (bytesWords (fit 48 d.boot.mPattern))) d s

/-- A commit may begin (R544, R545, R555) and none is under way. -/
def commitOpen (d : Dev) : Bool :=
  d.lifecycle != .returned && d.lifecycle != .departed && d.lifecycle != .scorched && d.pat.old.isNone && d.succ.state != 1
    && (d.fw.handover.map (fun h => h.ctype != 1)).getD true && !commitPending d && decide (commitsToday d < 24) && d.pat.highest + 1 != 2 ^ 24 - 1

/-- STORE of a valid staging area that the command names (R551, R554). -/
def effPatternStore : HostEffect where
  op := 0x0C03
  row := .patternStore
  pre r d := r.tenant == 0 && commitOpen d && r.sized 1 && onlyBits (r.w 0) [(47, 24), (15, 0)] && r.f 0 47 24 == (staged d).base
    && r.f 0 15 0 == (staged d).edits && (invalidAt d (staged d).image).isNone
  out r d s :=
    let g := d.pat.highest + 1
    goesOn r (beginCommit r (targetBank d) (setHeader g (if inManufacture d then 0 else d.pat.gen) g 0 (staged d).image) false d) s

def effPatternRevert : HostEffect where
  op := 0x0C04
  row := .patternRevert
  pre r d := r.tenant == 0 && commitOpen d && r.len == 0
    && (previousBank d).any (fun b => (tenantTable b.image).all (fun x => decide (epochFor d (BitVec.ofNat 8 (recTenant x)) < 2 ^ 24)))
  out r d s :=
    let b := (previousBank d).getD {}
    goesOn r (beginCommit r (!d.pat.curInB) (setHeader (d.pat.highest + 1) d.pat.gen (fld (wd b.image 1) 23 0) 1
      (b.image.take 480 ++ (revertTable d b.image).flatten)) true d) s

-- Class 0x0D

/-- Word 1 of a pushed bundle, its total length, has arrived with the chunk of a push or before it. -/
def pushHeaded (r : Req) (d : Dev) : Bool := d.boot.pushHeader || (decide (r.f 0 31 0 ≤ 1) && decide (1 < r.f 0 31 0 + (r.words.length - 1)))

/-- The push with the words of a chunk laid into it. -/
def pushLaid (r : Req) (d : Dev) : Dev := { d with boot := { d.boot with
  push := overlay (r.f 0 31 0) (r.words.drop 1) d.boot.push, pushStarted := true, pushHeader := pushHeaded r d, lastChunk := d.now } }

/-- BOOT_PUSH: a chunk of a bundle not yet whole is laid into the push and acknowledged (R148, R149). -/
def BootPushTakes : Prop :=
  ∀ r s, r ∈ s.dev.cmds → r.opcode = 0x0D00 → romHalted s.dev = false → s.dev.boot.progress = 0x05 ∨ s.dev.boot.progress = 0x0C →
    (r.sized r.words.length && onlyBits (r.w 0) [(47, 47), (31, 0)] && decide (2 ≤ r.words.length) && decide (r.words.length ≤ 10922)
      && !bitOf (r.w 0) 47) = true →
    r.f 0 31 0 + (r.words.length - 1) ≤ pushLimit (pushHeaded r s.dev) (overlay (r.f 0 31 0) (r.words.drop 1) s.dev.boot.push) →
    exec (.bootPush r) s = .next { s with dev := complete r St.ok [] 0 (pushLaid r (taken r s.dev)) }

def effFwStageOpen : HostEffect where
  op := 0x0D01
  row := .fwStageOpen
  pre r d := r.tenant == 0 && r.admin && r.sized 1 && onlyBits (r.w 0) [(47, 40)] && decide (1 ≤ r.f 0 47 40) && decide (r.f 0 47 40 ≤ 3)
    && (r.f 0 47 40 != 2 || stagingSlot d != 0) && d.fw.pendingTypes.isEmpty && d.fw.handover.isNone && !fwStaging d
  out r d s :=
    let slot := if r.f 0 47 40 = 3 then 0 else stagingSlot d
    let x := eraseFirst slot d
    accepts r 3 0 .stage [mkWord [(47, 40, slot)]] { x with fw := { x.fw with
      fallback := if r.f 0 47 40 = 3 then [] else x.fw.fallback, loaded := none
      stage := some { target := r.f 0 47 40, slot := slot, handle := freeHandle d } } } s

/-- A chunk of the live staging, behind the words held and shaped as R606 says. -/
def stageChunk (r : Req) (d : Dev) : Option (LongOp × StageState) :=
  match needLong r (r.f 0 23 0) 3 d, d.fw.stage with
  | .ok l, some x => if longRunning l && x.handle == l.handle && r.f 1 31 0 == x.words.length then some (l, x) else none
  | _, _ => none

/-- A chunk that passes its checks is written to the slot and counted; the last one completes the staging, any other ends at a
suspension point (R583-R586, R603). -/
def effFwStageChunk : HostEffect where
  op := 0x0D02
  row r := .fwStageChunk r true
  pre r d := r.tenant == 0 && r.admin && r.sized r.words.length && r.sizedMin 2 && onlyBits (r.w 0) [(24, 24), (23, 0)]
    && onlyBits (r.w 1) [(31, 0)]
    && (stageChunk r d).any (fun p => (p.2.slot == 0 || flashReachable d)
      && (stageCheck d p.2.target p.2.words.length (p.2.words ++ r.words.drop 2) (bitOf (r.w 0) 24)).isNone)
  out r d s := match stageChunk r d with
    | none => .next s
    | some (l, x) =>
      let ws := x.words ++ r.words.drop 2
      let e := modLong l.handle (fun l => { l with units := l.units + 1 }) d
      let e := { e with fw := { e.fw with stage := some { x with words := ws } } }
      let e := if x.slot = 0 then e
        else issueWrites (flashSequence (slotAddress x.slot).toNat (max 4096 (6 * x.words.length)) (6 * ws.length))
          (setSlotWords x.slot (eraseSector (overSlot ws (slotWords e x.slot))) e)
      answers r [word ws.length] (flushOwed (if bitOf (r.w 0) 24 then stageDone x ws e else suspensionPoint l.handle e)) s

/-- A chunk that fails a check ends the staging FAILED with the status of the check (R584). -/
def effFwStageRefused : HostEffect where
  op := 0x0D02
  row r := .fwStageChunk r true
  pre r d := r.tenant == 0 && r.admin && r.sized r.words.length && r.sizedMin 2 && onlyBits (r.w 0) [(24, 24), (23, 0)]
    && onlyBits (r.w 1) [(31, 0)]
    && (stageChunk r d).any (fun p => (stageCheck d p.2.target p.2.words.length (p.2.words ++ r.words.drop 2) (bitOf (r.w 0) 24)).isSome)
  out r d s := match stageChunk r d with
    | none => .next s
    | some (l, x) =>
      let st := (stageCheck d x.target x.words.length (x.words ++ r.words.drop 2) (bitOf (r.w 0) 24)).getD St.ok
      ends st r [] 0 (flushOwed (finishLong l.handle .failed st d)) s

/-- FW_LOAD of a chunk that is not the last, of a bundle that was staged without a slot (R589). -/
def effFwLoad : HostEffect where
  op := 0x0D03
  row := .fwLoad
  pre r d := r.tenant == 0 && r.admin && r.sized r.words.length && r.sizedMin 2 && onlyBits (r.w 0) [(47, 40)] && onlyBits (r.w 1) [(31, 0)]
    && decide (1 ≤ r.f 0 47 40) && decide (r.f 0 47 40 ≤ 5) && d.fw.handover.isNone && r.w 1 == 0
    && (stagedLive d).any (fun x => x.slot == 0 && (stagedEntry (stagedWords d x) (r.f 0 47 40)).any (fun e => decide (r.words.length - 2 ≤ e.length)))
  out r d s := answers r [word (r.words.length - 2)] { d with fw := { d.fw with loaded := some (r.f 0 47 40, r.words.drop 2, false) } } s

/-- FW_HANDOVER of a loaded component begins its phases 1 and 2 (R590, R591). -/
def effFwHandover : HostEffect where
  op := 0x0D04
  row := .fwHandover
  pre r d := r.tenant == 0 && r.admin && r.sized 1 && onlyBits (r.w 0) [(47, 40)] && (stagedLive d).isSome
    && d.fw.loaded.any (fun x => x.1 == r.f 0 47 40 && x.2.2) && d.fw.handover.isNone && d.succ.state != 1 && d.succ.state != 2
  out r d s :=
    let t := r.f 0 47 40
    let new := bBuild ((stagedLive d).getD {}).words
    let h : HandoverState := { ctype := t, phase := 1, newBuild := new, began := d.now, req := r }
    goesOn r (toPhase 2 (toPhase 1 (fwEvent t 2 new { d with fw := { d.fw with handover := some h } }))) s

/-- FW_VERSION_COMMIT raises the versions to those of the committed bundle, the major one by a fuse step, when the fallback bundle is
valid and not below them; else it is FW_ROLLBACK. A fuse step that does not end whole leaves the minor version (R129, R599, R600). -/
def effFwVersionCommit (fuse : FuseEnd) : HostEffect where
  op := 0x0D05
  row r := .fwVersionCommit r fuse
  pre r d := r.tenant == 0 && r.admin && r.len == 0 && (stagedLive d).isNone && decide (d.secVersion ≤ 64)
    && decide (bMajor (committedHeader d) ≤ 64) && (decide (bMajor (committedHeader d) ≤ d.secVersion) || fuseWindow d)
  out r d s :=
    let h := committedHeader d
    let minor (x : Nat) (e : Dev) : Dev := { e with boot := { e.boot with secMinor := x } }
    let event (x y : Nat) (e : Dev) : Out :=
      answers r [mkWord [(30, 24, x), (23, 0, y)]] (fwEvent 0 6 (mkWord [(30, 24, x), (23, 0, y)]).toNat (minor y e)) s
    if d.secVersion < bMajor h then
      let e := blowGroup 2 (0x0A + (bMajor h - 1) / 24) ((bMajor h - 1) % 24) fuse d
      if !(fallbackValid d && notBelow d.fw.fallback (bMajor h) (bMinor h)) then refused St.fwRollback r d s
      else match fuse with
        | .programmed => event (bMajor h) (bMinor h) e
        | .stuck _ _ => ends St.internalFault r [] 0 (raiseFault 6 e) s
        | _ => waits r e s
    else
      let y := max d.boot.secMinor (bMinor h)
      if fallbackValid d && notBelow d.fw.fallback d.secVersion y then event d.secVersion y d
      else refused St.fwRollback r d s

def effFwStatus : HostEffect where
  op := 0x0D06
  row := .fwStatus
  pre r _ := r.tenant == 0 && r.admin && r.len == 0
  out r d s := answers r (fwStatusWords d) d s

/-- FW_RESTART restarts the device with its writes complete; mailboxes, rings and refusal slots are empty after it (R222, R606). -/
def effFwRestart : HostEffect where
  op := 0x0D07
  row := .fwRestart
  pre r _ := r.tenant == 0 && r.admin && r.len == 0
  out _ d s := .next { s with dev := restart 5 Cause.command (finishWrites d), flow := {} }

def effLogRead : HostEffect where
  op := 0x0D10
  row := .logRead
  pre r _ := r.tenant == 0 && r.admin && r.sized 1 && onlyBits (r.w 0) [(31, 16), (15, 0)]
    && decide (r.f 0 31 16 ≤ if r.origin = .port .b then 2046 else 2730)
  out r d s := answers r (logWords (r.f 0 31 16) (r.f 0 15 0) d) d s

-- Class 0x0E

/-- The operation that a class 0x0E command names and may act on (R264). -/
def longOf (any : Bool) (r : Req) (d : Dev) : Option LongOp :=
  (longAt d (BitVec.ofNat 24 (r.f 0 23 0))).bind (fun l =>
    if r.sized 1 && onlyBits (r.w 0) [(23, 0)] && (l.tenant == r.tenant || (any && r.tenant == 0 && r.admin)) then some l else none)

def effLongStatus : HostEffect where
  op := 0x0E01
  row := .longStatus
  pre r d := r.tenant != 0xFF && (longOf false r d).isSome
  out r d s :=
    let l := (longOf false r d).getD {}
    answers r [mkWord [(47, 40, l.kind), (39, 32, l.state.code), (31, 24, l.status.toNat), (23, 0, l.handle.toNat)], word l.units, word l.total,
      if l.state = .suspended then 0 else word l.gen] d s

def effLongSuspend : HostEffect where
  op := 0x0E02
  row := .longSuspend
  pre r d := r.tenant != 0xFF && (longOf false r d).any (fun l => l.state == .running || l.state == .queued)
  out r d s :=
    let l := (longOf false r d).getD {}
    answers r [] (modLong l.handle (fun l =>
      if l.state = .queued then { l with state := .suspended, suspTick := d.now } else { l with state := .suspendPending }) d) s

def effLongResume : HostEffect where
  op := 0x0E03
  row := .longResume
  pre r d := r.tenant != 0xFF && (longOf false r d).any (fun l => l.state == .suspended)
  out r d s := .next { s with dev := fillEngines 600 (conclude r St.ok [] 0 (resumeLong ((longOf false r d).getD {}) d)) }

def effLongCancel : HostEffect where
  op := 0x0E04
  row := .longCancel
  pre r d := r.tenant != 0xFF && (longOf true r d).isSome
  out r d s := answers r [] (flushOwed (cancelLong ((longOf true r d).getD {}).handle d)) s

def effLongRelease : HostEffect where
  op := 0x0E05
  row := .longRelease
  pre r d := r.tenant != 0xFF && (longOf false r d).any (fun l => l.state.final)
  out r d s :=
    let l := (longOf false r d).getD {}
    let e := if l.internal then d else freeSlot l.cmd d
    answers r [] { e with sched := { e.sched with longs := e.sched.longs.filter (fun x => x.handle != l.handle) } } s

def effLongList : HostEffect where
  op := 0x0E06
  row := .longList
  pre r _ := r.tenant != 0xFF && r.len == 0
  out r d s :=
    let l := d.sched.longs.filter (fun l => l.tenant == r.tenant)
    answers r (word l.length :: l.map (fun l => word l.handle.toNat)) d s

-- Class 0x0F

/-- Words of the applet's load that have arrived. -/
def loadSoFar (r : Req) (d : Dev) : List Word := ((d.app.loads.find? (fun l => l.1 == refOf r)).map (·.2)).getD []

/-- APPLET_LOAD of a chunk in order that is not the last (R675). -/
def effAppletLoad : HostEffect where
  op := 0x0F01
  row := .appletLoad
  pre r d := r.tenant != 0xFF && hasRight d r 2 && r.sized r.words.length && r.sizedMin 2 && onlyBits (r.w 0) [(47, 32), (15, 0)]
    && r.f 0 15 0 == (loadSoFar r d).length && decide ((loadSoFar r d).length + (r.words.length - 1) ≤ imageMax)
    && !((appletAt d (refOf r)).any (·.loaded))
  out r d s :=
    let img := loadSoFar r d ++ r.words.drop 1
    answers r [word img.length] { d with app := { d.app with loads := d.app.loads.filter (fun l => l.1 != refOf r) ++ [(refOf r, img)] } } s

/-- The last chunk of a load whose image and admission hold up: with a good signature and room on a cluster the applet is placed
there, mapped and ready; else AUTH_FAIL or BUSY_RETRY. The load is over in each case (R652, R673, R675). -/
def effAppletLoadLast : HostEffect where
  op := 0x0F01
  row := .appletLoad
  pre r d :=
    let img := loadSoFar r d ++ r.words.drop 1
    r.tenant != 0xFF && hasRight d r 2 && r.sized r.words.length && r.sizedMin 2 && onlyBits (r.w 0) [(47, 32), (24, 24), (15, 0)]
      && bitOf (r.w 0) 24 && r.f 0 15 0 == (loadSoFar r d).length && decide (img.length ≤ imageMax) && !((appletAt d (refOf r)).any (·.loaded))
      && imgFormed img && fld (wd img 0) 39 32 == r.tenant.toNat && fld (wd img 0) 31 16 == (refOf r).id.toNat
      && (boundEntry d r (refOf r)).any (fun e => decide (fld (wd e 0) 23 8 ≤ fld (wd img 0) 15 0)
        && sha384 (wordsBytes (imgKeyWords img)) == wordsBytes (slice e 1 8))
      && anyEngine d && engineIdle d
  out r d s :=
    let img := loadSoFar r d ++ r.words.drop 1
    let d := { d with app := { d.app with loads := d.app.loads.filter (fun l => l.1 != refOf r) } }
    let e := chargePk r.tenant (if imgScheme img == 2 then 0x04 else 0x06) d
    if !imgVerifies img then refused St.authFail r d s
    else match placeFor e img with
      | none => refused St.busyRetry r d s
      | some c => answers r [word img.length, word c, word (footprint img)] (mapApplet (refOf r) true { e with app := { e.app with
          applets := e.app.applets.filter (fun x => x.ref != refOf r) ++ [loadedApplet (refOf r) img c] } }) s

/-- The loaded applet that a command names. -/
def appletOf (r : Req) (d : Dev) : Option Applet := (appletAt d (refOf r)).bind (fun x => if x.loaded then some x else none)

def effAppletUnload : HostEffect where
  op := 0x0F02
  row := .appletUnload
  pre r d := r.tenant != 0xFF && r.sized 1 && onlyBits (r.w 0) [(47, 32)] && (appletOf r d).isSome
  out r d s := answers r [] (requestUnload ((appletOf r d).getD {}).ref d) s

/-- The admission entry that lets the host call the applet (R666, R676). -/
def callEntry (r : Req) (d : Dev) : Bool :=
  (appletOf r d).any (fun x => (boundEntry d r x.ref).any (fun e => entryPermits e 1 && decide (fld (wd e 0) 23 8 ≤ x.version)))

def effAppletCall : HostEffect where
  op := 0x0F03
  row := .appletCall
  pre r d :=
    let n := r.f 0 15 0
    r.tenant != 0xFF && onlyBits (r.w 0) [(47, 32), (15, 0)] && decide (n ≤ 4096) && decide (6 + n ≤ r.len) && decide (r.len ≤ 6 + 6 * wordsOf n)
      && ((wordsBytes (r.words.drop 1)).drop n).all (· == 0) && callEntry r d
  out r d s :=
    let x := (appletOf r d).getD {}
    let p := addLong { kind := 6, tenant := r.tenant, state := .queued, gen := r.gen, origin := r.origin, deadline := r.deadline
                       cmd := r.id, data := .applet x.ref (r.words.drop 1) (r.f 0 15 0) } d
    ends St.accepted r [acceptedWord 6 p.1] 6 (nextActivation x.ref p.2) s

def effAppletResult : HostEffect where
  op := 0x0F04
  row := .appletResult
  pre r d := r.tenant != 0xFF && (longOf false r d).any (fun l => l.kind == 6 && l.state.final && !l.result.isEmpty)
  out r d s :=
    let l := (longOf false r d).getD {}
    ends St.ok r l.result l.resultBytes d s

def effAppletTrigger : HostEffect where
  op := 0x0F05
  row := .appletTrigger
  pre r d :=
    let c := r.f 0 7 0
    r.tenant != 0xFF && r.sized 2 && onlyBits (r.w 0) [(47, 32), (8, 8), (7, 0)] && decide (2 ≤ c) && decide (c ≤ 4)
      && triggerValueOk c (r.w 1) && (appletOf r d).any (fun x => (boundEntry d r x.ref).any (fun e => entryPermits e c))
  out r d s := answers r [] (modApplet ((appletOf r d).getD {}).ref (setTrigger (r.f 0 7 0) (bitOf (r.w 0) 8) (r.w 1) d.now) d) s

def effAppletStatus : HostEffect where
  op := 0x0F06
  row := .appletStatus
  pre r _ := r.tenant != 0xFF && r.sized 1 && onlyBits (r.w 0) [(47, 32)]
  out r d s := answers r (((appletAt d (refOf r)).map appletStatusWords).getD [0, 0, 0, 0]) d s

def effAppletList : HostEffect where
  op := 0x0F07
  row := .appletList
  pre r _ := r.tenant != 0xFF && r.len == 0
  out r d s :=
    let l := d.app.applets.filter (fun x => x.ref.tenant == r.tenant && x.loaded)
    answers r (word l.length :: l.map (fun x => mkWord [(47, 32, x.ref.id.toNat)])) d s

-- Class 0x10

def effMgmtInfo : HostEffect where
  op := 0x1001
  row := .mgmtInfo
  pre r _ := r.len == 0
  out r d s := answers r ([mgmtReg d 0] ++ d.serial ++ [mkWord [(23, 0, d.pat.gen)], fenceWord d, mkWord [(31, 0, d.fw.committed)]]) d s

def effMgmtSensors : HostEffect where
  op := 0x1002
  row := .mgmtSensors
  pre r _ := r.len == 0
  out r d s :=
    let p := d.power
    answers r ((List.range 4).map (fun i => mkWord [(23, 0, (intWord (p.temps.getD i 0)).toNat)])
      ++ [mkWord [(47, 32, p.vdd), (31, 16, Config.unstated 151 [d.now]), (15, 0, d.boot.input.coreRail)],
        mkWord [(40, 40, flag (p.railA.getD false)), (41, 41, flag (p.railB.getD false)), (42, 42, flag (p.railM.getD false)),
          (31, 0, d.time.c1Count)]]) d s

/-- MGMT_HEALTH_READ answers as many words as it asks for; their layout is open (log 13). -/
def effMgmtHealthRead : HostEffect where
  op := 0x1003
  row := .mgmtHealthRead
  pre r _ := r.sized 1 && onlyBits (r.w 0) [(31, 0)] && decide (1 ≤ r.f 0 7 0) && decide (r.f 0 7 0 ≤ 6) && decide (1 ≤ r.f 0 15 8)
    && decide (r.f 0 15 8 ≤ 248) && decide (r.f 0 31 16 + r.f 0 15 8 ≤ healthSize (r.f 0 7 0))
  out r d s := answers r ((List.range (r.f 0 15 8)).map (fun i => healthWord d (r.f 0 7 0) (r.f 0 31 16 + i))) d s

def effMgmtLogRead : HostEffect where
  op := 0x1004
  row := .mgmtLogRead
  pre r _ := r.sized 1 && onlyBits (r.w 0) [(31, 0)] && decide (1 ≤ r.f 0 31 16) && decide (r.f 0 31 16 ≤ 61)
  out r d s := answers r (logWords (r.f 0 31 16) (r.f 0 15 0) d) d s

/-- The packet is authenticated (R614, R651). -/
def fromMgmt (r : Req) : Bool := r.origin == .mgmt && r.mac

def effMgmtAddress : HostEffect where
  op := 0x1011
  row := .mgmtAddress
  pre r _ := fromMgmt r && r.sized 2 && onlyBits (r.w 1) [(6, 0)] && decide (0x08 ≤ r.f 1 6 0) && decide (r.f 1 6 0 ≤ 0x77)
  out r d s := answers r [] (healthWrite 6 { d with mgmt := { d.mgmt with nextAddress := BitVec.ofNat 7 (r.f 1 6 0) } }) s

/-- MGMT_POWER answers and asks for STANDBY or HIBERNATE, which comes at once unless a handover or a succession runs (R619). -/
def effMgmtPower : HostEffect where
  op := 0x1010
  row := .mgmtPower
  pre r _ := fromMgmt r && r.sized 2 && onlyBits (r.w 1) [(7, 0)] && (r.f 1 7 0 == 2 || r.f 1 7 0 == 3)
  out r d s :=
    let x := settlePower (complete r St.ok [] 0 { releaseHalts d with power := { d.power with
      deferred := some (if r.f 1 7 0 == 2 then .standby else .hibernate) } })
    .next { s with dev := x.1, flow := if x.2 then {} else s.flow }

def effMgmtFence : HostEffect where
  op := 0x1020
  row := .mgmtFence
  pre r _ := fromMgmt r && r.sized 2 && onlyBits (r.w 1) [(7, 0)] && isUnit (r.f 1 7 0)
  out r d s := answers r [] (fenceUnit (r.f 1 7 0) d) s

/-- MGMT_UNFENCE after a self-test of the unit: passed, it serves again; failed, the fence stays (R626). -/
def effMgmtUnfence (passed : Bool) : HostEffect where
  op := 0x1021
  row r := .mgmtUnfence r passed
  pre r d := fromMgmt r && r.sized 2 && onlyBits (r.w 1) [(7, 0)] && isUnit (r.f 1 7 0) && !unitByFuse d (r.f 1 7 0)
  out r d s :=
    let d := unfenceTested (r.f 1 7 0) passed d
    if passed then answers r [] (if unitFenced d (r.f 1 7 0) then liftFence (r.f 1 7 0) d else d) s
    else ends St.internalFault r [] 0 d s

def effMgmtRestart : HostEffect where
  op := 0x1040
  row := .mgmtRestart
  pre r _ := fromMgmt r && r.sized 1
  out _ d s := .next { s with dev := restart 5 Cause.command (finishWrites d), flow := {} }

/-- MGMT_BUNDLE_PUSH takes a chunk as BOOT_PUSH does (R622). -/
def BundlePushTakes : Prop :=
  ∀ r s, r ∈ s.dev.cmds → r.opcode = 0x1030 → romHalted s.dev = false → s.dev.power.pfn = false → s.dev.boot.progress = 0x05 ∨ s.dev.boot.progress = 0x0C →
    (r.sized r.words.length && onlyBits (r.w 0) [(47, 47), (31, 0)] && decide (2 ≤ r.words.length) && decide (r.words.length ≤ 249)
      && !bitOf (r.w 0) 47) = true →
    r.f 0 31 0 + (r.words.length - 1) ≤ pushLimit (pushHeaded r s.dev) (overlay (r.f 0 31 0) (r.words.drop 1) s.dev.boot.push) →
    exec (.mgmtBundlePush r) s = .next { s with dev := complete r St.ok [] 0 (pushLaid r (taken r s.dev)) }

-- Class 0x11

def byAdmin (r : Req) : Bool := r.tenant == 0 && r.admin

def signerReady (d : Dev) : Bool := anyEngine d && d.sym.randomOk && d.att.key.isSome

def effSuccChallenge : HostEffect where
  op := 0x1101
  row := .succChallenge
  pre r d := byAdmin r && d.lifecycle == .field && r.len == 0 && d.succ.state == 0 && d.sym.randomOk
  out r d s :=
    let n := drawWords 8 d
    answers r n.1 { n.2 with succ := { n.2.succ with nonce := some n.1 } } s

/-- The handoff of a package that the offer asked for (R633-R636). -/
def handoff (r : Req) (d : Dev) (s : State) : Out :=
  let offer := r.words.take 227
  let raw := r.bytesFrom 341 (r.len - 6 * 341)
  let m := drawBytes 32 d
  let e := kemEncaps ((wordsBytes (slice offer 29 198)).take 1184) m.1
  let b := drawBytes 56 m.2
  let eph := scalarFrom 0x11 b.1
  let keys := successionKeys e.2 ((agree 2 eph (wordsBytes (slice offer 13 16))).getD []) d.serial (slice offer 1 2) (slice offer 5 8)
  let g := gcmEnc (keys.take 32) zeroIv [] (wordsBytes (packageWords d))
  let body := [formatOne] ++ d.serial ++ fitW 182 (bytesWords e.1) ++ fitW 16 (bytesWords (publicKey 0x11 eph))
    ++ [word (bytesWords g.1).length] ++ bytesWords (sha384 g.1)
  let sig := signBlock (d.att.key.getD {}) (tagS 0x42) body b.2
  let x := alertBit Alert.succession { sig.2 with succ := { sig.2.succ with
    state := 1, nonce := none, began := sig.2.now, peer := slice offer 1 2, peerKey := certSubject (raw.take (derLength raw))
    cipher := bytesWords g.1, tag := fitW 3 (bytesWords g.2), kt := keys.drop 32, digest := sha384 g.1, transitLive := true
    committing := false } }
  let own := d.att.cert0.getD []
  ends St.ok r (body ++ sig.1 ++ bytesWords own) (6 * 226 + own.length) x s

/-- SUCC_BEGIN: an offer and statement that hold up are answered by the handoff, any other by the check that failed (R633-R636). -/
def effSuccBegin : HostEffect where
  op := 0x1103
  row := .succBegin
  pre r d := byAdmin r && d.lifecycle == .field && decide (6 * 341 < r.len) && decide (r.len ≤ 6 * 341 + 2052) && d.succ.state == 0
    && !commitPending d && d.pat.old.isNone && d.fw.handover.isNone && signerReady d && engineIdle d && d.nvm.writes.isEmpty
    && decide ((packageWords d).length ≤ 20480)
  out r d s :=
    let raw := r.bytesFrom 341 (r.len - 6 * 341)
    match checkOffer d (r.words.take 227) (slice r.words 227 114) (raw.take (derLength raw)) with
    | .ok _ => handoff r d s
    | .error e => .next { s with dev := refuse r e d }

def effSuccPackageRead : HostEffect where
  op := 0x1104
  row := .succPackageRead
  pre r d := byAdmin r && d.succ.state == 1 && r.sized 1 && decide (r.f 0 31 0 + r.f 0 47 32 ≤ (d.succ.cipher ++ d.succ.tag).length)
    && decide (r.f 0 47 32 ≤ replyRoom r)
  out r d s := answers r (slice (d.succ.cipher ++ d.succ.tag) (r.f 0 31 0) (r.f 0 47 32)) d s

/-- A settled reply: a power state that waited for the end of the succession may follow it (R619). -/
def settles (st : Byte) (r : Req) (ws : List Word) (n : Nat) (d : Dev) (s : State) : Out :=
  let y := settlePower (conclude r st ws n d)
  .next { s with dev := y.1, flow := if y.2 then {} else s.flow }

/-- SUCC_COMMIT with a good acknowledgement programs the group that retires the device, and its departure block is the reply; a step
that does not end whole leaves the transition open (R129, R639-R641). -/
def effSuccCommit (fuse : FuseEnd) : HostEffect where
  op := 0x1106
  row r := .succCommit r fuse
  pre r d := byAdmin r && d.succ.state == 1 && r.sized 29 && d.jrn.summary.isEmpty && fuseWindow d && !d.succ.committing && signerReady d
    && engineIdle d
  out r d s :=
    let e := departEntry (openTransition .departed { d with succ := { d.succ with committing := true } })
    if !ackOk d r.words then refused St.authFail r d s
    else match fuse with
      | .programmed =>
        let x := departureBlock (d.att.key.getD {}) (commitDeparture e)
        settles St.ok r x.1 (6 * x.1.length) x.2 s
      | .stuck _ _ => settles St.internalFault r [] 0 (raiseFault 6 (programState .departed fuse e)) s
      | _ => waits r (programState .departed fuse e) s

def effSuccDepartureRead : HostEffect where
  op := 0x1107
  row := .succDepartureRead
  pre r d := byAdmin r && d.lifecycle == .departed && r.len == 0 && signerReady d && engineIdle d
  out r d s :=
    let x := departureBlock (d.att.key.getD {}) d
    answers r x.1 x.2 s

/-- A conversion of 1 to 16 flacons, each with its status word (R637, R643). -/
def converts (r : Req) (f : List Word → Dev → Res (List Word × Dev)) (d : Dev) (s : State) : Out :=
  let x := convertAll f (r.f 0 7 0) (r.words.drop 1) d
  answers r (x.1.map (·.1) ++ x.1.flatMap (·.2)) x.2 s

def convertOk (r : Req) (d : Dev) : Bool :=
  r.sizedMin 1 && onlyBits (r.w 0) [(7, 0)] && decide (1 ≤ r.f 0 7 0) && decide (r.f 0 7 0 ≤ 16) && d.sym.randomOk

def effSuccessionTransit : HostEffect where
  op := 0x1110
  row := .successionTransit
  pre r d := r.tenant != 0xFF && d.succ.state == 1 && convertOk r d
  out r d s := converts r (toTransit r) d s

def effSuccOffer : HostEffect where
  op := 0x1102
  row := .succOffer
  pre r d := byAdmin r && d.lifecycle == .field && !d.identityMarginal && r.sized 10 && d.succ.state != 1 && d.fw.handover.isNone
    && freshDevice d && signerReady d && engineIdle d && d.att.cert0.isSome
  out r d s :=
    let cert := d.att.cert0.getD []
    let b := drawBytes 56 d
    let q := drawBytes 64 b.2
    let eph := scalarFrom 0x11 b.1
    let offer := [mkWord [(47, 40, 1), (39, 32, 3), (31, 24, d.orderByte)]] ++ d.serial ++ slice r.words 8 2 ++ r.words.take 8
      ++ fitW 16 (bytesWords (publicKey 0x11 eph)) ++ fitW 198 (bytesWords (publicKey 0x21 q.1))
    let body := statementBody q.2 false (bytesWords (sha384 (tagS 0x46 ++ wordsBytes offer)))
    let sig := signBlock (d.att.key.getD {}) (tagKV4856 0x41 0x54) body q.2
    let x := alertBit Alert.succession { sig.2 with succ := { sig.2.succ with
      state := 2, nonce := some (r.words.take 8), began := sig.2.now, peer := slice r.words 8 2, peerKey := [], ephEc := eph, ephKem := q.1
      cipher := [], tag := [], kt := [], receive := [], pending := none, transitLive := false } }
    ends St.ok r (offer ++ body ++ sig.1 ++ bytesWords cert) (6 * 341 + cert.length) x s

/-- SUCC_RECEIVE of a part that is not the last (R638). -/
def effSuccReceive : HostEffect where
  op := 0x1105
  row := .succReceive
  pre r d := byAdmin r && d.succ.state == 2 && r.sized r.words.length && r.sizedMin 1 && onlyBits (r.w 0) [(23, 0)] && d.succ.pending.isNone
    && (r.f 0 23 0 == 0 || r.f 0 23 0 == d.succ.receive.length) && decide (r.f 0 23 0 + (r.words.length - 1) ≤ receiveLimit)
  out r d s :=
    let old := if r.f 0 23 0 = 0 then [] else d.succ.receive
    answers r [] { d with succ := { d.succ with receive := old ++ r.words.drop 1 } } s

/-- SUCC_RECEIVE of the last part: a stream that opens leaves a pending copy in the key store and is acknowledged, signed; any other
is dropped with AUTH_FAIL (R638). -/
def effSuccReceiveLast : HostEffect where
  op := 0x1105
  row := .succReceive
  pre r d := byAdmin r && d.succ.state == 2 && r.sized r.words.length && r.sizedMin 1 && onlyBits (r.w 0) [(24, 0)] && bitOf (r.w 0) 24
    && d.succ.pending.isNone && (r.f 0 23 0 == 0 || r.f 0 23 0 == d.succ.receive.length)
    && decide (r.f 0 23 0 + (r.words.length - 1) ≤ receiveLimit) && signerReady d && engineIdle d && baseReachable d
  out r d s :=
    let old := if r.f 0 23 0 = 0 then [] else d.succ.receive
    match openPackage d (old ++ r.words.drop 1) with
    | none => ends St.authFail r [] 0 { d with succ := { d.succ with receive := [] } } s
    | some (plain, digest, kt, key) =>
      let c := sealPending plain digest d
      let body := [formatOne] ++ d.serial ++ d.succ.peer ++ bytesWords digest
      let sig := signBlock (d.att.key.getD {}) (tagS 0x41) body c.2
      answers r (body ++ sig.1) { sig.2 with succ := { sig.2.succ with receive := [], pending := some c.1, kt := kt, peerKey := key } } s

/-- SUCC_ACTIVATE with a departure block of the peer activates the pending copy (R642, R650). -/
def effSuccActivate : HostEffect where
  op := 0x1108
  row := .succActivate
  pre r d := byAdmin r && d.succ.state == 2 && r.sized 39 && anyEngine d && engineIdle d
    && d.succ.pending.any (fun c => (openPending d c).isOk)
  out r d s :=
    let c := d.succ.pending.getD {}
    if wd r.words 0 == formatOne && slice r.words 1 2 == d.succ.peer && slice r.words 3 2 == d.serial && slice r.words 14 8 == bytesWords c.digest
        && blockSigned d.succ.peerKey (tagS 0x44) (r.words.take 23) (slice r.words 23 16) then
      let x := activate (orElse (openPending d c) {}) (wd r.words 5) (slice r.words 6 8) d
      settles St.ok r [mkWord [(47, 24, x.pat.gen)]] 6 x s
    else refused St.authFail r d s

/-- SUCC_RELEASE with a block of the pending owner's session authority activates the copy without the peer (R644). -/
def effSuccRelease : HostEffect where
  op := 0x1109
  row := .succRelease
  pre r d := byAdmin r && d.succ.state == 2 && r.sized 22 && anyEngine d && engineIdle d
    && d.succ.pending.any (fun c => (openPending d c).isOk)
  out r d s :=
    let c := d.succ.pending.getD {}
    if wd r.words 0 == formatOne && slice r.words 1 2 == d.succ.peer && slice r.words 3 2 == d.serial
        && releaseSigned (List.replicate 8 0 ++ (orElse (openPending d c) {}).image) r.words then
      let x := activate (orElse (openPending d c) {}) c.seqAtFreeze (bytesWords c.headAtFreeze) d
      settles St.ok r [mkWord [(47, 24, x.pat.gen)]] 6 x s
    else refused St.authFail r d s

/-- SUCC_ABORT discards the package on the one device and the pending copy on the other (R648). -/
def effSuccAbort : HostEffect where
  op := 0x110A
  row := .succAbort
  pre r d := byAdmin r && ((d.succ.state == 1 && !d.succ.committing) || d.succ.state == 2) && r.len == 0
  out r d s := settles St.ok r [] 0 (if d.succ.state = 1 then abortOutgoing d else discardPending d) s

def effSuccClose : HostEffect where
  op := 0x110B
  row := .succClose
  pre r d := byAdmin r && d.succ.transitLive && d.succ.state == 0 && r.len == 0
  out r d s := answers r [] { d with succ := { d.succ with kt := [], transitLive := false } } s

def effSuccessionInherit : HostEffect where
  op := 0x1111
  row := .successionInherit
  pre r d := r.tenant != 0xFF && d.succ.transitLive && d.succ.state == 0 && convertOk r d
  out r d s := converts r (fromTransit r) d s

def effSuccStatus : HostEffect where
  op := 0x1112
  row := .succStatus
  pre r _ := byAdmin r && r.len == 0
  out r d s := answers r [mkWord [(1, 0, d.succ.state)],
    word (if d.succ.state = 1 then d.succ.cipher.length else ((d.succ.pending.map (·.words)).getD 0)),
    mkWord [(0, 0, flag d.succ.transitLive)]] d s

-- Link events

/-- A frame's first words open a frame on a port that admits, over a partial one that goes first, and further words at its end extend it, as
long as it is not whole and fits (R191-R193). -/
def FrameBegins : Prop :=
  (∀ p words s, portLive s.dev p = true → (s.dev.port p).admitting = true →
    (words.length < 2 ∨ (frameLen words ≤ p.payloadMax ∧ frameWords words ≤ p.ringSize - (s.dev.port p).rxUsed ∧ words.length < frameWords words)) →
    exec (.requestFrame p 0 words) s = .next { s with dev := (discardPartial p s.dev).modPort p (fun x => { x with rx := words, rxDead := false }) })
  ∧ ∀ p old words s, portLive s.dev p = true → (s.dev.port p).rx = old → 2 ≤ old.length → (s.dev.port p).rxDead = false →
    (old ++ words).length < frameWords (old ++ words) →
    exec (.requestFrame p old.length words) s = .next { s with dev := s.dev.modPort p (fun x => { x with rx := old ++ words, rxDead := false }) }

/-- The device as a frame's arrival finds it awake (R52). -/
def roused (d : Dev) : Dev :=
  if d.power.state = .standby ∨ d.power.state = .idle then { d with power := { d.power with state := .active } } else d

/-- The last words of a frame complete it; having passed the checks of R194 it takes a credit; what becomes of its command is then
`accepted` (R197), or the boot ROM's while that runs (R158). -/
def FrameArrives : Prop :=
  ∀ p old words s, portLive s.dev p = true → (s.dev.port p).rx = old → (s.dev.port p).rxDead = false →
    (old = [] → (s.dev.port p).admitting = true) → 2 ≤ (old ++ words).length →
    (old.length < 2 → frameLen (old ++ words) ≤ p.payloadMax ∧ frameWords (old ++ words) ≤ p.ringSize - (s.dev.port p).rxUsed) →
    (old ++ words).length = frameWords (old ++ words) →
    (crc32c (wordsBytes (old ++ words).dropLast)).toNat = fld ((old ++ words).getLastD 0) 31 0 →
    (frameReq p (old ++ words)).version = 2 ∨ (frameReq p (old ++ words)).version = 3 →
    (s.flow.port p).mailbox + (s.flow.port p).ring.length < p.credits →
    (let ws := old ++ words
     let n := ceilDiv (frameLen ws) 6
     let d := roused (s.dev.modPort p (fun x => { x with rx := [], rxDead := false, rxUsed := x.rxUsed + ws.length, heard := s.dev.now }))
     exec (.requestFrame p old.length words) s = .next { s with
      flow := s.flow.setPort p { s.flow.port p with mailbox := (s.flow.port p).mailbox + 1 }
      dev := if s.dev.boot.running then accepted p (frameReq p ws) (ws.take 2) (slice ws 2 n) (slice ws (2 + n) 2) d
        else romAccepted p (frameReq p ws) (slice ws 2 n) d })

/-- A frame written whole that fails a check is refused in the order of R194, with its status in the refusal slot (R195). -/
def FrameRefused : Prop :=
  ∀ p ws s, portLive s.dev p = true → (s.dev.port p).admitting = true → (s.dev.port p).rx = [] → 2 ≤ ws.length →
    (let live (x : List Word) (dead : Bool) : State := { s with dev := s.dev.modPort p (fun y => { y with rx := x, rxDead := dead }) }
     let refuses (x : List Word) (dead : Bool) (st : Byte) (ctr : Nat) : Prop :=
       exec (.requestFrame p 0 ws) s = .next (if dead then { (frameRefusal p ws st ctr s) with
           dev := (frameRefusal p ws st ctr s).dev.modPort p (fun y => { y with rx := x, rxDead := true }) }
         else frameRefusal p ws st ctr (live x false))
     (p.payloadMax < frameLen ws → refuses ws true St.frameLength 0)
     ∧ (frameLen ws ≤ p.payloadMax → p.ringSize - (s.dev.port p).rxUsed < frameWords ws → refuses ws true St.busyRetry 0)
     ∧ (frameLen ws ≤ p.payloadMax → frameWords ws ≤ p.ringSize - (s.dev.port p).rxUsed → ws.length = frameWords ws →
        (let ctr := fld (ws.getLastD 0) 47 32
         let crcOk := (crc32c (wordsBytes ws.dropLast)).toNat = fld (ws.getLastD 0) 31 0
         let versionOk := (frameReq p ws).version = 2 ∨ (frameReq p ws).version = 3
         (¬ crcOk → refuses [] false St.frameCrc ctr)
         ∧ (crcOk → ¬ versionOk → refuses [] false St.formatVersion ctr)
         ∧ (crcOk → versionOk → p.credits ≤ (s.flow.port p).mailbox + (s.flow.port p).ring.length → refuses [] false St.noCredit ctr))))

/-- A partial frame goes, counted and reported, by ABORT_RX, its timeout, or a frame that begins over it; with ADMIT 0 a frame that begins is
discarded and counted; a wrong offset is a LINK_ERROR and leaves the frame (R191-R194). -/
def PartialFrameGoes : Prop :=
  let gone (p : Port) (d : Dev) : Dev :=
    attnBit Attn.partialDiscard p (d.modPort p (fun x => { x with rx := [], rxDead := false, discard := x.discard + 1 }))
  let live (p : Port) (d : Dev) : Bool := !(d.port p).rx.isEmpty && !(d.port p).rxDead
  (∀ p, Happens (.partialFrameTimeout p) (live p) (gone p))
  ∧ (∀ p, Happens (.abortRx p) (fun d => portLive d p && live p d) (gone p))
  ∧ (∀ p words s, portLive s.dev p = true → live p s.dev = true →
      exec (.requestFrame p 0 words) s = exec (.requestFrame p 0 words) { s with dev := gone p s.dev })
  ∧ (∀ p words, Happens (.requestFrame p 0 words) (fun d => portLive d p && !(d.port p).admitting && (d.port p).rx.isEmpty)
      (fun d => d.modPort p (fun x => { x with discard := x.discard + 1, rxDead := true, rx := words })))
  ∧ ∀ p n words, n ≠ 0 → Happens (.requestFrame p n words) (fun d => portLive d p && (d.port p).rx.length != n) (attnBit Attn.linkError p)

/-- A management transaction wakes the device (R52), and any but a PKT_WINDOW_WRITE ends a write to the window (log 82). -/
def awake (d : Dev) : Dev := if d.power.state = .standby then { d with power := { d.power with state := .active } } else d

/-- REG_WRITE: ATTN_CAUSE clears by one, ATTN_MASK is written, PORT_CONTROL bit 0 aborts; ALERT_CAUSE and ALERT_MASK do as the port's; the
other indexes of a port have no effect (R176, R179, R193, R610). -/
def RegisterWrites : Prop :=
  (∀ p v, Happens (.regWrite (.port p) 1 v) (fun d => portLive d p) (fun d => d.modPort p (fun x => { x with attn := x.attn &&& ~~~(v.setWidth 12) })))
  ∧ (∀ p v, Happens (.regWrite (.port p) 2 v) (fun d => portLive d p) (fun d => d.modPort p (fun x => { x with mask := v.setWidth 12 })))
  ∧ (∀ p v, Happens (.regWrite (.port p) 6 v) (fun d => portLive d p) (fun d => if v.getLsbD 0 then discardPartial p d else d))
  ∧ (∀ p i v, i ≠ 1 → i ≠ 2 → i ≠ 6 → Happens (.regWrite (.port p) i v) (fun _ => true) (fun d => d))
  ∧ (∀ v, Happens (.regWrite .mgmt 1 v) mgmtLive
      (fun d => { awake d with mgmt := { d.mgmt with taken := 0, alert := d.mgmt.alert &&& ~~~(v.setWidth 12) } }))
  ∧ ∀ v, Happens (.regWrite .mgmt 2 v) mgmtLive (fun d => { awake d with mgmt := { d.mgmt with taken := 0, amask := v.setWidth 12 } })

/-- The oldest completed reply of a port moves from its mailbox credit into the ring when it fits, and its command's queue slot comes free
(R198, R202, R278); a public-key outcome waits for the end of a handover's pause (R408). -/
def ReplyEnters : Prop :=
  ∀ p x s, firstFor p s.dev.done = some x → ringUsed (s.flow.port p) + (wireReply p x s.dev).1.length ≤ p.ringSize →
    0 < (s.flow.port p).mailbox → deliveryPaused x s.dev = false → exec (.replyEnqueue p) s = .next { s with
      flow := s.flow.setPort p { s.flow.port p with
        mailbox := (s.flow.port p).mailbox - 1
        ring := (s.flow.port p).ring ++ [{ tag := x.req.tag, words := (wireReply p x s.dev).1 }] }
      dev := closeMixed (retire x { (wireReply p x s.dev).2 with done := (wireReply p x s.dev).2.done.erase x }) }

/-- The host releases the head by its tag: the refusal slot, or the ring's first when the slot is empty or that one was the head when the
refusal came (R177, R178). -/
def ReplyLeaves : Prop :=
  (∀ p x s, portLive s.dev p = true → (s.flow.port p).refusal = some x → (s.flow.port p).ringHead = false →
    exec (.replyRelease p x.tag) s = .next { s with flow := s.flow.setPort p { s.flow.port p with refusal := none } })
  ∧ ∀ p x rest s, portLive s.dev p = true → (s.flow.port p).refusal = none ∨ (s.flow.port p).ringHead = true → (s.flow.port p).ring = x :: rest →
    exec (.replyRelease p x.tag) s = .next { s with flow := s.flow.setPort p { s.flow.port p with ring := rest, ringHead := false } }

/-- A reply that is held for a command, by its kind. -/
def heldFor (k : HeldKind) (id : Nat) (d : Dev) : Option Held := d.held.find? (fun h => h.kind == k && h.reply.req.id == id)

/-- The held reply joins the completed ones, stamped with the tick of its delivery. -/
def delivers (k : HeldKind) (id : Nat) (d : Dev) : Dev :=
  let h := (heldFor k id d).getD {}
  { d with held := d.held.erase h, done := d.done ++ [{ h.reply with tick := d.now }] }

-- Power, reset and boot

def powered (d : Dev) : Bool := d.power.state == .active || d.power.state == .idle || d.power.state == .standby

/-- The device when PF_N is released: a pattern commit stopped before its K0-valid write is void, the replies that waited join the completed
ones and each command in progress is BUSY_RETRY (R50, R724). -/
def resumed (d : Dev) : Dev :=
  let d := voidCommits d
  d.power.pfnCmds.foldl (fun d r => complete r St.busyRetry [] 0 d)
    { d with done := d.done ++ d.power.pfnReplies, power := { d.power with pfn := false, pfnCmds := [], pfnReplies := [] } }

-- Time, distance and the journal's own events

/-- The legal tick advances in every state that has a supply; on RC its cycles, the division phase and the quality follow, UNCONFIRMED in
BLANK; state times, occupancy buckets, the held counts and a closed generation are looked after at it (R27, R67, R71, R78, R283, R285, R562). -/
def TickAdvances : Prop :=
  Happens .legalTick (fun d => d.power.state != .off) (fun d =>
    let x := countState { d with time := { d.time with
      tick := d.time.tick + 1
      rcTicks := if d.time.onRc then d.time.rcTicks + 1 else d.time.rcTicks
      rcPhase := if d.time.onRc then (d.time.rcPhase + 1) % 8 else d.time.rcPhase
      quality := if d.time.onRc then (if d.lifecycle = .blank then .unconfirmed else .uncertain) else d.time.quality } }
    closeMixed (recountHeld (if d.boot.running && x.now % 4 == 0 then newBucket x else x)))

/-- A pulse of full width counts; the first after STANDSTILL sets MOVING, in HIBERNATE too; in the powered states it joins its gate and the last
second's pulses and wakes the device (R52, R89, R92-R94). -/
def PulseCounts : Prop :=
  (∀ low high t, Happens (.spdPulse low high t)
    (fun d => clockChecked d && decide (filterWidth d ≤ low) && decide (filterWidth d ≤ high))
    (fun d =>
      let x := { d with dist := { d.dist with pulses := d.dist.pulses + 1 } }
      let y := awake (if d.dist.moving then x else setMotion true x)
      { y with dist := { y.dist with
        gatePulses := countGate (y.now / 1024) y.dist.gatePulses, previous := if d.dist.moving then d.dist.last else none, last := some t
        recent := t :: d.dist.recent.filter (fun x => decide (t < x + 1048576)) } }))
  ∧ ∀ low high t, Happens (.spdPulse low high t)
    (fun d => (d.power.state == .hibernate || d.power.state == .shutdown) && decide (filterWidth d ≤ low) && decide (filterWidth d ≤ high))
    (fun d =>
      let x := { d with dist := { d.dist with pulses := d.dist.pulses + 1 } }
      if d.dist.moving then x else setMotion true x)

-- Scheduler and engines

/-- The lane has run the quantum's blocks and is free, its time is charged to the tenant and trace point 208 is written (R243, R252, R357). -/
def handedIn (l : Fin 9) (us : Nat) (j : CipherJob) (d : Dev) : Dev :=
  let d := runQuantum l.val j.level (roundsOf j.key) (quantumOps j) (modStat j.req.tenant (fun x => { x with laneUs := x.laneUs + us }) d)
  traceT Core.sch 208 j.req.tenant (word l.val) (handleOf j.slot.tenant j.slot.index j.slot.gen)
    (modLane l.val (fun x => { x with job := none }) { d with power := { d.power with workAt := d.now } })

/-- The lane has the job and no tamper response is due. -/
def onLane (l : Fin 9) (j : CipherJob) (d : Dev) : Bool := (d.sym.lanes.getD l.val {}).job == some j && !responseDue d

/-- The job after a quantum that compared equal. -/
def advanced (j : CipherJob) : CipherJob := { j with blocks := j.blocks + quantumBlocks j.level j.mode, retried := false, avoid := none }

/-- Whether the job's deadline still stands in a device. -/
def inTime (j : CipherJob) (d : Dev) : Bool := decide (d.now ≤ j.req.deadline)

/-- An engine whose program has come to its fixed end: it is free, the operand slots and the scratch are overwritten (R399). -/
def programOut (e : Fin 2) (j : PkJob) (d : Dev) : Dev :=
  refillOperands j (modEngine e.val (fun x => { x with job := none }) { d with power := { d.power with workAt := d.now } })

/-- The slot of a reservation takes the commit's end. -/
def reserved (x : Reservation) (f : Nonce → Nonce) (d : Dev) : Dev :=
  settleReservation f x { d with nvm := { d.nvm with reservations := d.nvm.reservations.erase x } }

/-- The same for a commit that verified, with trace point 84 (R348). -/
def limitRaised (x : Reservation) (d : Dev) : Dev :=
  let y := reserved x (fun n => { n with limit := n.attempted, reserving := false }) d
  match slotAt y x.tenant x.index with
  | some t => logAt Core.sec 84 t.handle (word ((t.nonce.map (fun n => n.limit)).getD 0)) false y
  | none => y

/-- What the oldest write leaves the queue of writes with. -/
def writeTaken (d : Dev) : Dev := { d with nvm := { d.nvm with writes := d.nvm.writes.drop 1 } }

-- Faults and tamper

/-- A confirmation at the source's pattern level with no minimum raising it. -/
def confirmationOf (src : Nat) (value : BitVec 24) (d : Dev) : Latch :=
  { src := src, tick := d.now, dist := d.distance.toNat, value := value, level := srcLevel d src
    flags := if srcPattern d src < srcMin d src then 2 else 0 }

def confirmed (src : Nat) (value : BitVec 24) (d : Dev) : Dev :=
  modSrc src (fun t => { t with
    confirmed := !isEvent src, responded := t.responded && !isEvent src, level := srcLevel d src, value := value, count := srcN d src }) d

/-- The source is enabled and watched, the device past BLANK, and the confirmation is the first since the last response. -/
def answersNow (src : Nat) (d : Dev) : Bool :=
  !srcDisabled d src && watched d src && d.lifecycle != .blank && (isEvent src || !(srcState d src).responded) && src != 16 && src != 20

-- Applets

/-- Applet a executes, the instruction is the one at its PC and its fuel is there. -/
def atInstr (a : AppletRef) (i : AppletInstr) (cost : Nat) (x : Applet) (t : Activation) (d : Dev) : Prop :=
  executing d a = some (x, t) ∧ x.code[t.pc]? = some (encodeApplet i) ∧ cost ≤ t.fuel

/-- The device after an instruction that stores nothing: the activation, and the tick of the last engine work. -/
def actAfter (a : AppletRef) (t : Activation) (d : Dev) : Dev := setAct a t { d with power := { d.power with workAt := d.now } }

/-- The same after a store. -/
def dataAfter (a : AppletRef) (t : Activation) (data : List Word) (d : Dev) : Dev :=
  modApplet a (fun x => { x with act := some t, data := data }) { d with power := { d.power with workAt := d.now } }

/-- The activation after an instruction: its PC, its registers and its fuel. -/
def ran (t : Activation) (cost pc : Nat) (regs : List Word) : Activation := { t with pc := pc, regs := regs, fuel := t.fuel - cost }

/-- The instruction `row` leaves the PC and the registers that its equations give, and takes `cost` fuel units; all else stays as it was. -/
def Executes (row : Instr) (a : AppletRef) (i : AppletInstr) (cost : Nat) (pc : Activation → Nat) (regs : Activation → List Word) : Prop :=
  ∀ s x t, atInstr a i cost x t s.dev → pc t < x.code.length →
    exec row s = .next { s with dev := actAfter a (ran t cost (pc t) (regs t)) s.dev }

/-- An instruction that writes rd alone and falls through. -/
def WritesReg (row : Instr) (a : AppletRef) (i : AppletInstr) (cost : Nat) (rd : BitVec 4) (v : Activation → Word) : Prop :=
  Executes row a i cost (fun t => t.pc + 1) (fun t => setAt t.regs rd.toNat (v t))

/-- The word address of a load or store. -/
def memAddr (t : Activation) (ra : BitVec 4) (imm : BitVec 10) : Nat := (BitVec.ofInt 48 ((reg t ra).toNat + imm.toInt)).toNat

/-- A byte of data memory: byte 6w is bits [7:0] of word w (R5). -/
def byteAt (data : List Word) (n : Nat) : Byte := (wordsBytes data).getD n 0

/-- Where a branch goes: PC + 1 plus the signed offset when taken, else the next index, modulo 2^15. -/
def branchTo (taken : Prop) [Decidable taken] (ofs : Int) (t : Activation) : Nat :=
  if taken then (((t.pc : Int) + 1 + ofs) % 32768).toNat else t.pc + 1

/-- An instruction that moves the PC alone. -/
def MovesPc (row : Instr) (a : AppletRef) (i : AppletInstr) (pc : Activation → Nat) : Prop :=
  Executes row a i 1 pc (fun t => t.regs)

/-- The device as an instruction of `cost` fuel is about to act. -/
def charged (a : AppletRef) (cost : Nat) (t : Activation) (d : Dev) : Dev :=
  setAct a { t with fuel := t.fuel - cost } { d with power := { d.power with workAt := d.now } }

-- Debug and boundary scan

/-- DBG_SELECT holds, an attachment is live, no request waits and the core is none of the reserved ones. -/
def dbgReady (core : BitVec 4) (d : Dev) : Bool :=
  tapLive d && d.dbg.attached && d.dbg.ir == 0x10 && d.dbg.held.isNone && coreCodeOk core.toNat

/-- The request's core and address, as the register shows them. -/
def echoed (core : BitVec 4) (addr : BitVec 24) (d : Dev) : Dev := { d with dbg := { d.dbg with echoCore := core, echoAddr := addr } }

-- The machine as a whole

/-- The bytes of an SPI transaction: the instruction, its complement on port A, the address, the data. -/
def spiBytes (p : Port) (i : Byte) (addr : Nat) (data : List Byte) : List Byte :=
  (match p with
    | .a => [i, ~~~i]
    | .b => [i]) ++ [BitVec.ofNat 8 addr, BitVec.ofNat 8 (addr / 256)] ++ data

/-- HOST of a port, as CREDIT reads it. -/
def hostCredits (p : Port) (f : Flow) : Nat := p.credits - (f.port p).mailbox - (f.port p).ring.length

/-- The end of an activation by a fault of an instruction of `cost` fuel: nothing but the charge comes before it. -/
def faults (row : Instr) (a : AppletRef) (i : AppletInstr) (cost : Nat) (code : Nat) (ok : Applet → Activation → Prop) : Prop :=
  ∀ s x t, atInstr a i cost x t s.dev → ok x t →
    exec row s = .next { s with dev := endActivation a code 0 0 [] (charged a cost t s.dev) }

/-- The instruction at `pc` is the last of the code. -/
def atLast (x : Applet) (t : Activation) : Prop := x.code.length ≤ t.pc + 1

end Sys2Proof.Machine

open Sys2Proof Sys2Proof.Machine

/-- Class 0x01 completes with the replies and session changes of R234, R208 and R221. -/
def Obligations.HostLinkCommandsComplete : Prop :=
  effLinkInfo.Holds ∧ effLinkPing.Holds ∧ effSessionStatus.Holds ∧ effSessionOpen.Holds ∧ effSessionClose.Holds ∧ effSessionRevoke.Holds

/-- Accepted TENANT_WRITE and TENANT_REMOVE are one edit of the staging area and change nothing else; the reads of class 0x02 answer OK and leave
the device as it was (R239, R284, R285, R547). -/
def Obligations.TenantCommandsComplete : Prop :=
  effTenantWrite.Holds ∧ effTenantRemove.Holds ∧ effTenantRead.Holds ∧ effTenantList.Holds ∧ effTenantStats.Holds ∧ effEngineOccupancy.Holds

/-- LIFECYCLE_READ, LIFECYCLE_ADVANCE and OPTION_PROGRAM take their effects when their preconditions hold, however the programming steps end
(R123-R129, R171, R172). -/
def Obligations.LifecycleCommandsComplete : Prop :=
  effLifecycleRead.Holds ∧ (∀ fuse, (effLifecycleAdvance fuse).Holds) ∧ ∀ fails, (effOptionProgram fails).Holds

/-- New key material enters slots and flacons as R293-R298 and R314-R318 say. -/
def Obligations.KeyMakingCompletes : Prop :=
  effKeyDerive.Holds ∧ effFlaconLoad.Holds ∧ effFlaconCreate.Holds ∧ effFlaconCreateEc.Holds ∧ effFlaconImport.Holds

/-- The commands over slots answer from the slot their handle names, or start the write or the program that makes their change; FLACON_REWRAP is
accepted as an operation, and each chunk's flacons are rewrapped in turn and counted (R302, R308, R319, R320, R322, R338). -/
def Obligations.SlotCommandsComplete : Prop :=
  effKeyPersist.Holds ∧ effKeyPersistEc.Holds ∧ effKeyPersistDerived.Holds ∧ effKeyErase.Holds ∧ effKeyInfo.Holds ∧ effKeyList.Holds
    ∧ effKeyPublic.Holds ∧ effFlaconEpochAdvance.Holds ∧ effFlaconRewrap.Holds ∧ effFlaconRewrapChunk.Holds

/-- Cipher commands start on a lane with the key and IV they pinned; STREAM_OPEN is accepted as an operation (R321, R342, R363-R368). -/
def Obligations.CipherCommandsStart : Prop :=
  (effCipher 0x0401 .cipherEncrypt).Holds ∧ (effCipher 0x0402 .cipherDecrypt).Holds ∧ effStreamOpen.Holds ∧ effStreamChunk.Holds

/-- HASH answers the digest of its data; a hash stream's last chunk answers the digest of all its chunks (R379, R386). -/
def Obligations.HashCommandsAnswer : Prop := effHash.Holds ∧ effHashStreamOpen.Holds ∧ effHashStreamChunk.Holds

/-- Public-key commands start their program on a free engine with the slots of its operands held (R395, R399, R401). -/
def Obligations.PublicKeyCommandsStart : Prop :=
  effPkSign.Holds ∧ effPkVerify.Holds ∧ effPkAgree.Holds ∧ effPkKemPublic.Holds

/-- RSA key generation is accepted and its flacon and modulus can be fetched when it is done; PK_INFO lists the 23 programs (R393, R410, R424). -/
def Obligations.RsaAndInfoComplete : Prop := effRsaKeygen.Holds ∧ effRsaKeygenResult.Holds ∧ effPkInfo.Holds

/-- Appends, exports and receipts take their effects on the streams and their marks (R445, R458-R460). -/
def Obligations.JournalWritesComplete : Prop :=
  effJournalAppend.Holds ∧ effJournalExport.Holds ∧ effExportChunk.Holds ∧ effReceiptSubmit.Holds

/-- The reads of class 0x07 answer the journal's state and change nothing (R437, R472, R473). -/
def Obligations.JournalReadsAnswer : Prop :=
  effJournalStatus.Holds ∧ effJournalHead.Holds ∧ effSegmentRead.Holds ∧ effTraceRead.Holds

/-- The commands of class 0x08 that read, set and correct time (R77-R88, R113, R114, R118). -/
def Obligations.TimeCommandsComplete : Prop :=
  effTimeRead.Holds ∧ effTimeAdjust.Holds ∧ effTimeAuthChallenge.Holds ∧ effTimeAuthAdjust.Holds ∧ effTimeConfirm.Holds ∧ effTimeAlarmSet.Holds

/-- DISTANCE_READ answers the odometer and speed; GNSS_FEED keeps the newest sample with a 3D fix as of its admission; counters change hands by
the owner and are read and raised by their holder, one token an increment, in admission order (R90, R95, R99-R104, R116). -/
def Obligations.DistanceAndCountersComplete : Prop :=
  effDistanceRead.Holds ∧ effGnssFeed.Holds ∧ effCounterAllocate.Holds ∧ effCounterRelease.Holds ∧ effCounterRead.Holds
    ∧ effCounterIncrement.Holds

/-- Class 0x0A answers the sources' state, and an injection is a confirmation with the INJECTED flag (R515, R516). -/
def Obligations.TamperCommandsComplete : Prop := effTamperStatus.Holds ∧ effTamperSources.Holds ∧ effTamperInject.Holds

/-- Class 0x0B answers certificates, statements and responses, and the factory's commands make what they attest with (R517-R530). -/
def Obligations.AttestCommandsComplete : Prop :=
  effAttestCert.Holds ∧ effAttestStatement.Holds ∧ effAttestStatementFails.Holds ∧ effChallengeRespond.Holds ∧ effAttestKeygen.Holds ∧ effAttestCertWrite.Holds
    ∧ effVerifierSecretExport.Holds

/-- Class 0x0C reads and edits images, and STORE and REVERT write the other bank and begin its commit (R546-R558, R573). -/
def Obligations.PatternCommandsComplete : Prop :=
  effPatternRead.Holds ∧ effPatternWrite.Holds ∧ effPatternDiscard.Holds ∧ effPatternInfo.Holds ∧ effPatternStore.Holds
    ∧ effPatternRevert.Holds

/-- Class 0x0D stages, loads, hands over, commits and reports firmware (R148-R149, R583-R606). -/
def Obligations.FirmwareCommandsComplete : Prop :=
  BootPushTakes ∧ effFwStageOpen.Holds ∧ effFwStageChunk.Holds ∧ effFwStageRefused.Holds ∧ effFwLoad.Holds ∧ effFwHandover.Holds
    ∧ (∀ fuse, (effFwVersionCommit fuse).Holds) ∧ effFwStatus.Holds ∧ effFwRestart.Holds ∧ effLogRead.Holds

/-- Class 0x0E reports and steers the long operations of a tenant (R262-R272, R286, R287). -/
def Obligations.LongCommandsComplete : Prop :=
  effLongStatus.Holds ∧ effLongSuspend.Holds ∧ effLongResume.Holds ∧ effLongCancel.Holds ∧ effLongRelease.Holds ∧ effLongList.Holds

/-- Class 0x0F loads, unloads, calls and reports a tenant's applets (R666, R675, R679, R682, R683). -/
def Obligations.AppletCommandsComplete : Prop :=
  effAppletLoad.Holds ∧ effAppletLoadLast.Holds ∧ effAppletUnload.Holds ∧ effAppletCall.Holds ∧ effAppletResult.Holds ∧ effAppletTrigger.Holds
    ∧ effAppletStatus.Holds ∧ effAppletList.Holds

/-- Class 0x10 reports the device's health and carries out what an authenticated packet asks for (R607, R619-R626, R651). -/
def Obligations.ManagementCommandsComplete : Prop :=
  effMgmtInfo.Holds ∧ effMgmtSensors.Holds ∧ effMgmtHealthRead.Holds ∧ effMgmtLogRead.Holds ∧ effMgmtPower.Holds ∧ effMgmtAddress.Holds
    ∧ effMgmtFence.Holds ∧ (∀ passed, (effMgmtUnfence passed).Holds) ∧ BundlePushTakes ∧ effMgmtRestart.Holds

/-- The outgoing role: package, transit, departure (R633-R641). -/
def Obligations.OutgoingSuccessionComplete : Prop :=
  effSuccChallenge.Holds ∧ effSuccBegin.Holds ∧ effSuccPackageRead.Holds ∧ effSuccessionTransit.Holds ∧ (∀ fuse, (effSuccCommit fuse).Holds)
    ∧ effSuccDepartureRead.Holds

/-- The incoming role, and what ends a succession (R638, R642-R648). -/
def Obligations.IncomingSuccessionComplete : Prop :=
  effSuccOffer.Holds ∧ effSuccReceive.Holds ∧ effSuccReceiveLast.Holds ∧ effSuccActivate.Holds ∧ effSuccRelease.Holds ∧ effSuccAbort.Holds ∧ effSuccClose.Holds
    ∧ effSuccessionInherit.Holds ∧ effSuccStatus.Holds

/-- Frames, register writes and replies on the two ports (R173-R204). -/
def Obligations.LinkEventsHappen : Prop :=
  FrameBegins ∧ FrameArrives ∧ FrameRefused ∧ PartialFrameGoes ∧ RegisterWrites ∧ ReplyEnters ∧ ReplyLeaves
    ∧ ∀ p, Happens (.linkError p) (fun d => portLive d p) (attnBit Attn.linkError p)

/-- Held replies are delivered at their fixed time, a refusal outside a handover's pause and with INTERNAL_FAULT when its timer could not be
armed; a session without traffic closes after its idle timeout (R208, R221, R529, R709, R714, R717). -/
def Obligations.HeldRepliesDelivered : Prop :=
  (∀ id, Happens (.refusalDelivery id true) (fun d => (heldFor .refusal id d).isSome && !handoverPause d) (delivers .refusal id))
  ∧ (∀ id, Happens (.refusalDelivery id false) (fun d => (heldFor .refusal id d).isSome && !handoverPause d) (fun d =>
      let h := (heldFor .refusal id d).getD {}
      raiseFault 1 { d with
        held := d.held.erase h, done := d.done ++ [{ h.reply with tick := d.now, status := St.internalFault, words := [], bytes := 0 }] }))
  ∧ (∀ id armed, Happens (.refusalDelivery id armed) handoverPause (fun d => d))
  ∧ (∀ id, Happens (.sessionOpenReply id) (fun d => (heldFor .sessionOpen id d).isSome && dueHeld .sessionOpen id d) (fun d =>
      let h := (heldFor .sessionOpen id d).getD {}
      complete h.reply.req h.reply.status h.reply.words h.reply.bytes { d with held := d.held.erase h }))
  ∧ (∀ id, Happens (.challengeReply id) (fun d => (heldFor .challenge id d).isSome) (delivers .challenge id))
  ∧ ∀ p sid, Happens (.sessionIdleTimeout p sid)
      (fun d => (sessionAt (d.port p) sid).any (fun x => decide (x.seen + x.idle * 4096 ≤ d.now))) (closeSession p sid)

/-- The management port's events: a packet is built word by word, submitted, aborted, read and released (R612); a transaction that times out loses
the words it has brought (R63); the lockout ends (R649). -/
def Obligations.ManagementPortEventsHappen : Prop :=
  Happens .submit mgmtLive (fun d => submitPacket { awake d with mgmt := { d.mgmt with taken := 0 } })
  ∧ Happens .abort mgmtLive (fun d => { awake d with mgmt := { d.mgmt with window := [], taken := 0 } })
  ∧ Happens .release mgmtLive (fun d => { awake d with mgmt := { d.mgmt with reply := none, readAt := 0, taken := 0 } })
  ∧ (∀ v, Happens (.pktWindowWrite v) mgmtLive
      (fun d => { awake d with mgmt := { d.mgmt with window := d.mgmt.window ++ [v], taken := d.mgmt.taken + 1 } }))
  ∧ Happens .pktWindowRead (fun d => mgmtLive d && decide (d.mgmt.readAt < (d.mgmt.reply.getD []).length))
      (fun d => { awake d with mgmt := { d.mgmt with taken := 0, readAt := d.mgmt.readAt + 1 } })
  ∧ Happens .mgmtTransactionTimeout (fun _ => true) (fun d =>
      { d with mgmt := { d.mgmt with window := d.mgmt.window.take (d.mgmt.window.length - d.mgmt.taken), taken := 0 } })
  ∧ Happens .mgmtLockoutEnd (fun d => d.mgmt.lockEnd.any (fun e => decide (e ≤ d.now))) (fun d => { d with mgmt := { d.mgmt with lockEnd := none } })

/-- Supplies come and go: VDD, the pad groups' rails, VBAT's domain (R34-R40, R47, R51, R58, R76, R140). -/
def Obligations.SupplyEventsHappen : Prop :=
  (∀ kept, Restarts (.powerUp kept) (fun d => d.power.state == .off || d.power.state == .backup)
    (fun d => restart 2 Cause.por (if d.power.state == .off || !kept then loseAon d else d)))
  ∧ (∀ b, Restarts (.backupEntry true b) (fun d => d.power.state != .off && d.power.state != .backup) (fun d => enterBackup (finishWrites d)))
  ∧ (∀ b, Restarts (.backupEntry false b) (fun d => d.power.state != .off && d.power.state != .backup && !d.power.pfn)
      (fun d => enterBackup { d with nvm := { d.nvm with phase2 := b && !(d.nvm.writes.isEmpty && d.nvm.reservations.isEmpty) } }))
  ∧ (∀ g mv, Happens (.vddioRise g mv) (fun d => (railOf g d.power).isNone && decide (1000 ≤ mv) && mv != 2500)
      (fun d => { d with power := setRail g (some (decide (2500 < mv))) d.power }))
  ∧ ∀ g, Happens (.vddioLoss g) (fun _ => true) (fun d =>
      let x : Dev := { d with power := setRail g none d.power }
      match g with
      | .a => discardPartial .a x
      | .b => discardPartial .b x
      | .m => x)

/-- RESET_PIN of 1 us or more restarts from phase 4 with writes complete and the port registers at reset, and wakes from HIBERNATE; a PF_N warning
of 2 us or more ends commands in progress, held replies, operations and a bundle's fetch in every state but BACKUP; its release answers them
BUSY_RETRY, writes the records that waited and fetches again from the first source (R43-R50, R52, R161, R716, R724). -/
def Obligations.ResetAndWarningHappen : Prop :=
  (∀ ns b, 1000 ≤ ns → Restarts (.resetPin ns b) powered (fun d => { restart 4 Cause.pin (finishWrites d) with portA := {}, portB := {} }))
  ∧ (∀ ns b, 1000 ≤ ns → Restarts (.resetPin ns b) (fun d => d.power.state == .hibernate) (fun d =>
      let x := restart 3 Cause.hibWake (latchCause Cause.pin d)
      { x with power := { x.power with standbyAfter := true } }))
  ∧ (∀ ns b, 2000 ≤ ns → Happens (.pfNWarning ns b) (fun d => d.power.state != .off && d.power.state != .backup && !d.power.pfn)
      (fun d =>
        let x := abortOutgoing (abortHandover 2 (finishWhere (fun _ => true) .failed St.busyRetry (abandonHeld (abandonJobs
          { d with power := { d.power with pfn := true, pfnCmds := inProgress d } }))))
        if d.boot.progress == 0x05 || (d.boot.progress == 0x0C && (d.boot.pushStarted || !d.cmds.isEmpty)) then
          { x with boot := { x.boot with push := [], pushStarted := false, pushHeader := false, refetch := true } } else x))
  ∧ (∀ s, s.dev.power.pfn = true → (resumed s.dev).boot.running = true →
      (let y := settlePower (attnBoth Attn.ready (((resumed s.dev).app.applets.map (·.ref)).foldl (fun d a => nextActivation a d)
         (flushOwed (flushDeferred (resumed s.dev)))))
       exec .pfNResume s = .next { s with dev := y.1, flow := if y.2 then {} else s.flow }))
  ∧ (∀ s, s.dev.power.pfn = true → (resumed s.dev).boot.running = false → (resumed s.dev).boot.refetch = true →
      exec .pfNResume s = .next { s with
        dev := trySources (sourceOrder (resumed s.dev).fw.bootMode) { resumed s.dev with boot := { (resumed s.dev).boot with refetch := false } } })
  ∧ ∀ s, s.dev.power.pfn = true → (resumed s.dev).boot.running = false → (resumed s.dev).boot.refetch = false →
      exec .pfNResume s = .next { s with
        dev := if (resumed s.dev).boot.progress == 0x0C then attnBoth Attn.ready (resumed s.dev) else resumed s.dev }

/-- Power states by idleness and by wake sources, and the thermal limits (R52-R56, R620). -/
def Obligations.PowerStatesFollow : Prop :=
  Happens .idleEntry (fun d => d.boot.running && d.power.state == .active && !engineWork d && decide (d.power.workAt + 5 ≤ d.now)) (toPower .idle)
  ∧ Happens .idleStandbyExpiry (fun d => d.boot.running && (d.power.state == .active || d.power.state == .idle) && d.cfg 8 15 4 != 0
      && decide (d.power.frameAt + d.cfg 8 15 4 * 4096 ≤ d.now) && !(d.sched.longs.any (fun l => l.state == .running)) && d.dbg.halted.isEmpty)
      (fun d => toPower .standby (mirrorTrace d))
  ∧ (∀ w, w ≠ .resetPin → Restarts (.hibernateWake w) (fun d => d.power.state == .hibernate && wakes w d)
      (fun d => { restart 3 Cause.hibWake d with power := { (restart 3 Cause.hibWake d).power with standbyAfter := true } }))
  ∧ (∀ t, Happens (.thermalThrottle t) (fun d => !d.power.throttle && decide (2080 ≤ t))
      (fun d => logAt Core.pmc 161 1 (intWord t) false (alertBit Alert.throttle { setTemp t d with
        power := { (setTemp t d).power with throttle := true }, mgmt := { (setTemp t d).mgmt with throttles := (setTemp t d).mgmt.throttles + 1 } })))
  ∧ (∀ t, t ≤ 2000 → Happens (.thermalThrottle t) (fun d => d.power.throttle) (fun d =>
      fillEngines 600 (logAt Core.pmc 161 0 (intWord t) false { setTemp t d with power := { (setTemp t d).power with throttle := false } })))
  ∧ (∀ t, 2400 ≤ t → ∀ s, (powered s.dev || s.dev.power.state == .hibernate) = true →
      ∃ d, exec (.thermalShutdown t) s = .next { s with dev := d, flow := {} } ∧ d.power.state = .shutdown ∧ d.boot.running = false
        ∧ d.boot.cause.getLsbD Cause.thermal = true ∧ d.cmds = [])
  ∧ ∀ t, t ≤ 2240 → Restarts (.thermalRestart t) (fun d => d.power.state == .shutdown)
      (fun d => alertBit Alert.thermal (restart 3 Cause.thermal (setTemp t d)))

/-- Start-up: the ROM flow, which neither passes phase 3 on a core rail off 0.800 V nor leaves phase 5 under PF_N, ends in its waits or with
firmware up; pushes that stall or never begin pass on to the next source; the factory's command makes a MANUFACTURE device
(R42, R59, R60, R119, R143, R151, R163). -/
def Obligations.StartUpHappens : Prop :=
  let waiting (d : Dev) : Bool := d.boot.progress == 0x05 && !d.power.pfn && !d.dbg.halted.contains 1
  let entered (d : Dev) : Bool := d.power.state == .active && !d.boot.running && d.boot.progress == 0x01 && !d.power.pfn && !d.dbg.halted.contains 1
  let railOk (b : BootIn) : Bool := decide (776 ≤ b.coreRail) && decide (b.coreRail ≤ 824)
  (∀ b, Happens (.bootRomFlow b) (fun d => entered d && (decide (3 < d.boot.phase) || railOk b))
    (fun d =>
      let x := setTemp b.temp { d with power := { d.power with vdd := b.vdd }, boot := { d.boot with input := b, sources := [0, 0, 0, 0, 0] } }
      let y := sensedState d.lifecycle d.fuse.sensed
        (loadShadow b.reads { x with fuse := { x.fuse with above := bandsAt x.fuse.above b.temp } })
      let y := if y.lifecycle = .blank then y else romResponses (b.latchParity.foldl (fun d s => parityLatch s.val d) y)
      let z := remeasure (romEntryActions y)
      let z : Dev := { z with boot := { z.boot with mRom := Config.romDigest } }
      if z.lifecycle = .blank then setProgress 0x0D z else romSources z))
  ∧ (∀ b, Happens (.bootRomFlow b) (fun d => entered d && decide (d.boot.phase ≤ 3) && !railOk b)
      (fun d => { d with power := { d.power with coreFault := some (max b.coreRail 800 - min b.coreRail 800) } }))
  ∧ Happens .crystalStartTimeout (fun d => d.power.state == .active && !d.boot.running) (fun d => judgeClock { d with time := { d.time with stopped := true } })
  ∧ Happens .waitHostTimeout (fun d => waiting d && !d.boot.pushStarted && decide (d.boot.waitSince + 40960 ≤ d.now))
      (fun d => trySources d.boot.rest (noteSource d.fw.source 6 d))
  ∧ Happens .bootPushStallTimeout (fun d => waiting d && d.boot.pushStarted && decide (d.boot.lastChunk + 40960 ≤ d.now))
      (fun d => trySources d.boot.rest (noteSource d.fw.source 6 d))
  ∧ Happens .factoryTestCommand (fun d => d.boot.progress == 0x0D && d.lifecycle == .blank && fuseWindow d && !d.dbg.halted.contains 1)
      (fun d =>
        let j := drawBytes 32 (createBase d)
        let g := takePerGen j.2
        let k := sealSlot { tenant := 1, index := 0xF00, gen := g.1, ktype := 3, usages := 0x0C, material := j.1
                            descriptor := mkDesc 3 0x0C false } g.2
        let x := programState .manufacture .programmed { k.2 with keys := { k.2.keys with slots := k.2.keys.slots ++ [k.1] } }
        romSources (lifecycleRecord .blank .manufacture 1 (openSegment false (openSegment true { x with jrn := { x.jrn with created := true } }))))

/-- The clock checks set the latest results, by the windows of R68, and act on their verdict; a stopped crystal hands the tick to RC, its return
takes 512 ticks of passed checks; checkpoints rotate in pairs (R68-R75, R103, R118). -/
def Obligations.ClockEventsHappen : Prop :=
  TickAdvances
  ∧ (∀ c, Happens (.clockCheck c) clockChecked (fun d => judgeClock { d with time := { d.time with
      stopped := (c.oscillates.map (fun b => !b)).getD d.time.stopped
      c1Count := c.c1.getD d.time.c1Count
      c1Ok := (c.c1.map (fun n => decide (850000 ≤ n) && decide (n ≤ 1150000))).getD d.time.c1Ok
      c2Ok := (c.c2.map (fun x => decide (49150 ≤ x.1) && decide (x.1 ≤ 49154) && x.2)).getD d.time.c2Ok
      c3Ok := (c.c3.map (fun f => decide (160000 ≤ f) && decide (f ≤ 245000))).getD d.time.c3Ok } }))
  ∧ (∀ c, c.oscillates = some false → Happens (.clockCheck c) (fun d => d.power.state != .off && !clockChecked d)
      (fun d => judgeClock { d with time := { d.time with stopped := true } }))
  ∧ Happens .crystalStop (fun d => d.power.state != .off) (fun d => judgeClock { d with time := { d.time with stopped := true } })
  ∧ Happens .crystalReturn (fun d => clockChecked d && d.time.onRc && !d.time.stopped && d.time.passSince.any (fun t => decide (t + 512 ≤ d.now)))
      (fun d => { d with time := { d.time with onRc := false, rcPhase := 0 } })
  ∧ Happens (.tickCheckpoint true) (fun d => d.boot.running && decide (d.time.ckptAt < ckptIndex d.now) && !d.power.pfn
        && d.time.ckptDue.all (fun t => decide (t ≤ d.now)))
      (fun d =>
        let x : Checkpoint := { value := (d.now / 2 ^ 22 + 1) * 2 ^ 22, pulses := d.dist.pulses.toNat }
        { d with time := { d.time with
          ckptRows := setAt (setAt d.time.ckptRows (d.time.ckptRow % 16) (some x)) ((d.time.ckptRow + 1) % 16) (some x)
          ckptRow := (d.time.ckptRow + 2) % 16, ckptAt := ckptIndex d.now, ckptDue := none, ckptFirst := none, ckptFault := false } })
  ∧ Happens (.tickCheckpoint false) (fun d => d.boot.running && decide (d.time.ckptAt < ckptIndex d.now) && d.time.ckptFirst.isNone && d.time.ckptDue.isNone)
      (fun d => { d with time := { d.time with ckptFirst := some d.now, ckptDue := some (d.now + 4096) } })
  ∧ Happens .bucketRefill (fun d => decide (d.time.bucketAt < d.now / 512)) (fun d => { d with time := { d.time with
      bucket := min 256 (d.time.bucket + (d.now / 512 - d.time.bucketAt)), bucketAt := d.now / 512 } })
  ∧ ∀ t, Happens (.tickAlarm t) (fun d => d.boot.running && d.time.alarms.any (fun a => a.1 == t && decide (a.2 ≤ d.now)))
      (fun d => attnBoth Attn.tickAlarm { awake d with time := { d.time with
        alarms := d.time.alarms.filter (fun a => a.1 != t), fired := if d.time.fired.contains t then d.time.fired else d.time.fired ++ [t] } })

/-- Pulses, gates, standstill, the speed trace and its copy, folding (R46, R89-R98, R448-R453, R461). -/
def Obligations.SpeedEventsHappen : Prop :=
  PulseCounts
  ∧ (∀ now, Happens (.speedGate now) (fun d => d.boot.running && decide (d.dist.gate < d.now / 1024))
      (fun d =>
        let v := speedAt d.dist now
        let next := d.dist.gate + 1 == d.now / 1024
        let x : Dev := { d with dist := { d.dist with speed := v, gateSpeed := v, gate := d.now / 1024 } }
        speedTriggers d.dist.gateSpeed v (overspeedCheck next (gnssCheck (plausibility (d.now / 1024) next x)))))
  ∧ (∀ now, Happens (.standstillTimeout now)
      (fun d => clockChecked d && d.dist.moving && decide ((d.dist.last.getD 0) + ceilDiv (d.cfg 10 24 18 * 1048576) 10 ≤ now))
      (fun d => setMotion false { d with dist := { d.dist with speed := 0 } }))
  ∧ Happens .traceSample (fun d => d.boot.running && decide (d.jrn.traceAt < d.now / 4096)) (fun d =>
      let vs := d.jrn.vertices ++ noData (d.now / 4096 - d.jrn.traceAt - 1)
      { d with jrn := { d.jrn with
        traceAt := d.now / 4096, vertices := trimTrace (vs.length + 1) (addSample (min 4094 ((d.dist.speed + 32) / 64)) vs) } })
  ∧ Happens .traceMirror (fun d => d.boot.running && !d.power.pfn && decide (d.jrn.mirrorAt < d.now / 2457600))
      (fun d => healthWrite 1 { d with jrn := { d.jrn with mirrorAt := d.now / 2457600 }, mgmt := { d.mgmt with
        traceCopy := d.jrn.vertices, traceCopyTick := d.jrn.traceAt } })
  ∧ Happens .journalFold (fun d => d.boot.running && !d.power.pfn && journalOpen d && decide (d.jrn.foldAt < d.now / 2 ^ 22))
      (fun d => foldAll { d with jrn := { d.jrn with foldAt := d.now / 2 ^ 22 } })

/-- Windows, deadlines, limits of long operations and run-ahead staging (R243, R250, R258-R272, R274-R277). -/
def Obligations.ScheduleEventsHappen : Prop :=
  Happens .engineWindow (fun d => decide (d.sched.window < d.now / 4096)) (fun d => fillLanes (fillEngines 600 { d with sched := { d.sched with
      window := d.now / 4096, stats := d.sched.stats.map (fun x => { x with laneUs := 0, pkUs := 0, urgent := 0 }) } }))
  ∧ (∀ id r, Happens (.deadlineExpiry id) (fun d => d.cmds.find? (fun x => x.id == id && decide (x.deadline < d.now)) == some r)
      (fun d => refuseWith r St.deadline 0 (taken r d)))
  ∧ (∀ id j, Happens (.deadlineExpiry id) (fun d => !d.cmds.any (fun x => x.id == id && decide (x.deadline < d.now))
        && d.sym.waiting.find? (fun x => x.req.id == id && decide (x.req.deadline < d.now)) == some j)
      (fun d => refuseWith j.req St.deadline 0 { d with sym := { d.sym with waiting := d.sym.waiting.erase j } }))
  ∧ (∀ id l, Happens (.deadlineExpiry id) (fun d => !d.cmds.any (fun x => x.id == id && decide (x.deadline < d.now))
        && !d.sym.waiting.any (fun x => x.req.id == id && decide (x.req.deadline < d.now))
        && !d.pk.waiting.any (fun x => !isRsaJob x && x.req.id == id && decide (x.req.deadline < d.now))
        && d.sched.longs.find? (fun x => x.cmd == id && !x.internal && x.state = .queued && decide (x.deadline < d.now)) == some l)
      (finishLong l.handle .failed St.deadline))
  ∧ (∀ h, Happens (.longSuspensionPoint h)
      (fun d => (longAt d h).any (fun l => match l.data with
        | .applet _ _ _ => false
        | _ => true))
      (fun d => closeMixed (flushOwed (suspensionPoint h d))))
  ∧ (∀ h, Happens (.suspendLimitExpiry h)
      (fun d => (longAt d h).any (fun l => l.state == .suspended && decide (l.suspTick + d.cfg 8 27 16 * 4096 < d.now)))
      (fun d => flushOwed (cancelLong h d)))
  ∧ (∀ h l, Happens (.handleExpiry h) (fun d => longAt d h == some l && l.state.final && decide (l.endTick + 245760 ≤ d.now))
      (fun d =>
        let x := if l.internal then d else freeSlot l.cmd d
        { x with sched := { x.sched with longs := x.sched.longs.filter (fun y => y.handle != h) } }))
  ∧ (∀ id r f m x, Happens (.flaconStage id)
      (fun d => d.cmds.find? (fun r => r.id == id) == some r && (queuedFlacon r).map (fun g => g.take (flaconLen g)) == some f && amongFour r d
        && !d.keys.staged.any (fun y => y.id == id) && slotType (fld (wd f 0) 31 24)
        && decide (cacheHeld d r.tenant + cacheCost (fld (wd f 0) 31 24) ≤ quotaOf d r recCache)
        && (match unwrapFlacon r f d with
          | .ok y => y == (m, x)
          | .error _ => false))
      (fun _ => traceT Core.sch 21 r.tenant (word r.tenant.toNat) (word (Config.unstated 21 [id])) { x with keys := { x.keys with
        staged := x.keys.staged ++ [{ id := id, tenant := r.tenant, entries := cacheCost (fld (wd f 0) 31 24), material := m }] } }))
  ∧ Happens (.cacheZeroiseEnd true) (fun d => d.keys.zeroising != 0) (fun d => { d with keys := { d.keys with zeroising := d.keys.zeroising - 1 } })
  ∧ Happens (.cacheZeroiseEnd false) (fun d => d.keys.zeroising != 0)
      (fun d => raiseFault 2 { d with keys := { d.keys with zeroising := d.keys.zeroising - 1, fencedEntries := d.keys.fencedEntries + 1 } })

/-- Quanta and programs end with the job's result, its next quantum or its deadline; a datapath mismatch retries once elsewhere and then
fails; what FLASH hit is retried; a chain goes on to its next program (R208, R252, R260, R282, R370-R373, R399, R416, R417, R480). -/
def Obligations.EngineJobsEnd : Prop :=
  let ended (l : Fin 9) (mis : Option Nat) (pre : CipherJob → Dev → Bool) (f : CipherJob → Dev → Dev) : Prop :=
    ∀ us j, Happens (.laneQuantumEnd l us mis) (fun d => onLane l j d && pre j (handedIn l us j d))
      (fun d => fillLanes (failRandom (f j (handedIn l us j d))))
  let late (j : CipherJob) (d : Dev) : Dev := refuseWith j.req St.deadline 0 d
  (∀ l, ended l none (fun j x => !inTime j x) late)
  ∧ (∀ l, ended l none (fun j x => inTime j x && !j.withheld && j.stream.isNone && decide (jobBlocks j ≤ (advanced j).blocks))
      (fun j x => let y := shortResult (advanced j); complete j.req y.1 y.2.1 y.2.2 x))
  ∧ (∀ l h, ended l none (fun j x => inTime j x && !j.withheld && j.stream == some h && decide (jobBlocks j ≤ (advanced j).blocks))
      (fun j x => finishChunk (advanced j) h x))
  ∧ (∀ l, ended l none (fun j x => inTime j x && !j.withheld && decide ((advanced j).blocks < jobBlocks j))
      (fun j x => { x with sym := { x.sym with waiting := x.sym.waiting ++ [advanced j] } }))
  ∧ (∀ l, ended l none (fun j x => inTime j x && j.withheld)
      (fun j x => placeJob { j with retried := true, withheld := false, avoid := some (clusterOf l.val) } x))
  ∧ (∀ l blk, ended l (some blk) (fun j x => !inTime j (laneMismatch l.val blk j.req.tenant x)) (fun j x => late j (laneMismatch l.val blk j.req.tenant x)))
  ∧ (∀ l blk, ended l (some blk) (fun j x => inTime j (laneMismatch l.val blk j.req.tenant x) && !j.withheld && !j.retried)
      (fun j x => placeJob { j with retried := true, avoid := some (clusterOf l.val) } (laneMismatch l.val blk j.req.tenant x)))
  ∧ (∀ l blk, ended l (some blk) (fun j x => inTime j (laneMismatch l.val blk j.req.tenant x) && !j.withheld && j.retried)
      (fun j x => failCipher j (laneMismatch l.val blk j.req.tenant x)))
  ∧ ∀ e ok j, Happens (.pkProgramEnd e ok)
      (fun d => engineJob d e.val == some j && !responseDue d && decide (j.started + progUs j.prog * 4096 / 1000000 ≤ d.now))
      (fun d =>
        let x := programOut e j d
        fillEngines 600 (failPkStranded (
          if j.abandoned then x
          else if j.revoked then refuseWith j.req St.keyRevoked 0 x
          else if !contentOk j.work then complete j.req St.pkReject [] 0 x
          else if j.withheld then retryElsewhere e.val j x
          else if hasOutputCheck j.prog && !ok then outputFailed e.val j x
          else match j.chain, j.work with
            | p :: ps, _ => startProg e.val { j with prog := p, chain := ps, retried := false, avoid := none } x
            | [], .rsa h => rsaProgEnd h j.prog x
            | [], _ => pkResult j x)))

/-- Writes end; a scrub remaps what it must; known-answer tests clear what is owed or fence; the random source fails for good
(R46, R47, R348, R373-R378, R383, R418, R627-R632, R718, R722). -/
def Obligations.UnitEventsHappen : Prop :=
  (∀ e w, Happens (.nvmCommitEnd e) (fun d => d.nvm.writes.head? == some w) (fun d => heldOutcome d (endWrite e w (writeTaken d))))
  ∧ (∀ row area, Happens (.nvmScrub row area .clean) (fun d => !d.power.pfn)
      (fun d => { d with nvm := { d.nvm with lastScrub := d.nvm.lastScrub.filter (fun x => x.1 != row) } }))
  ∧ (∀ row i main, Happens (.nvmScrub row (.journal main i) .uncorrectable) (fun d => !d.power.pfn && decide (16 < d.nvm.spare))
      (fun d =>
        let x := takeSpare row (alertBit Alert.uncorrectable d)
        { x with nvm := { x.nvm with lastScrub := x.nvm.lastScrub.filter (fun y => y.1 != row) } }))
  ∧ (∀ l, Happens (.laneKat l true) (fun d => !laneOut d l.val)
      (fun d => fillLanes (modLane l.val (fun x => { x with owesKat := false }) (logAt Core.sch 210 (word l.val) 1 false d))))
  ∧ (∀ l, Happens (.laneKat l false) (fun d => !laneOut d l.val)
      (fun d => fillLanes (fenceLaneFor l.val 1 (logAt Core.sch 210 (word l.val) 0 false d))))
  ∧ (∀ u, Happens (.hashKat u false) (fun d => !clusterOut d u.val && !(d.sym.clusters.getD u.val {}).hashFenced)
      (fun d => fenceRecord (0x30 + u.val) 1 (reportFence (0x30 + u.val) 1
        (modCluster u.val (fun c => { c with hashFenced := true }) (logAt Core.sch 210 (word (0x30 + u.val)) 0 false d)))))
  ∧ (∀ e, Happens (.pkKat e false) (fun d => engineServes d e.val)
      (fun d => failPkStranded (fenceEngine e.val 1 (logAt Core.sch 210 (word (0x20 + e.val)) 0 false d))))
  ∧ (∀ e, Happens (.pkKat e true) (fun d => engineServes d e.val) (logAt Core.sch 210 (word (0x20 + e.val)) 1 false))
  ∧ (∀ s, ∃ d, exec .randomHealthFail s = .next { s with dev := d }
      ∧ d = fillEngines 600 (failRandom (logAt Core.sec 9 (word (Config.unstated 9 [])) 0 false { s.dev with sym := { s.dev.sym with randomOk := false } })))
  ∧ (∀ id x, Happens (.nonceReservationCommit id true)
      (fun d => d.nvm.reservations.find? (fun y => y.id == id) == some x && !(limitRaised x d).cmds.any (fun r => r.id == id)) (limitRaised x))
  ∧ (∀ id x, Happens (.nonceReservationCommit id false)
      (fun d => d.nvm.reservations.find? (fun y => y.id == id) == some x && !d.cmds.any (fun r => r.id == id))
      (reserved x (fun n => { n with broken := true, reserving := false })))
  ∧ ∀ id r x, Happens (.nonceReservationCommit id true)
      (fun d => d.nvm.reservations.find? (fun y => y.id == id) == some x
        && (limitRaised x d).cmds.find? (fun y => y.id == id) == some r && r.opcode == 0x0401)
      (fun d => if canDispatch (limitRaised x d) r then serveLaneCmd r (limitRaised x d) else markReady r.id (limitRaised x d))

/-- A watchdog runs out 410 ticks after its last service: SEC's, PMC's and SCH's restart the device from phase 4, in the boot ROM too, a cluster
core's costs its cluster's work; a halted or adopting core's does not. A protection fault restarts with FW_EVENT 7 owed, ends the applet's
activation, or fails the adoption of its core's new image (R140, R141, R160, R576, R577, R593, R594, R623, R680, R694). -/
def Obligations.FaultEventsHappen : Prop :=
  let out (c : CoreId) (since served : Nat) (d : Dev) : Bool := powered d && d.boot.progress != 0 && !coreHalted c d && (adopting c d).isNone
    && decide (since ≤ served) && decide (served + 410 ≤ d.now)
  let fault (c : CoreId) (addr : Word) (d : Dev) : Dev := logAt (coreLogCode c) 0 (word (coreLogCode c).toNat) addr false d
  (∀ c served, (∀ n, c ≠ .cc n) → Restarts (.watchdogExpiry ⟨c, served⟩) (fun d => out c d.boot.enteredAt served d) (restart 4 Cause.watchdog))
  ∧ (∀ n served, Happens (.clusterWatchdogExpiry ⟨n, served⟩) (fun d => d.boot.running && out (.cc n) (clusterSince n.val d) served d)
      (fun d => clusterLost n.val (logAt (coreLogCode (.cc n)) 1 (word (coreLogCode (.cc n)).toNat) 0 false d)))
  ∧ (∀ n served, Happens (.watchdogExpiry ⟨.cc n, served⟩) (fun d => d.boot.running && out (.cc n) (clusterSince n.val d) served d)
      (fun d => clusterLost n.val (logAt (coreLogCode (.cc n)) 1 (word (coreLogCode (.cc n)).toNat) 0 false d)))
  ∧ (∀ c served s, (∀ n, c ≠ .cc n) → (coreHalted c s.dev = true ∨ (adopting c s.dev).isSome = true ∨ s.dev.now < served + 410) →
      exec (.watchdogExpiry ⟨c, served⟩) s = .next s)
  ∧ (∀ c addr, (∀ n, c ≠ .cc n) → Restarts (.protectionFault (.core c) addr) (fun d => d.boot.running && (adopting c (fault c addr d)).isNone)
      (fun d => restart 5 Cause.fault (owe (coreDebugCode c) 7 (Config.faultCode 15).toNat (raiseFault 15 (fault c addr d)))))
  ∧ (∀ n addr, Happens (.protectionFault (.core (.cc n)) addr) (fun d => d.boot.running && (adopting (.cc n) (fault (.cc n) addr d)).isNone)
      (fun d => clusterLost n.val (fault (.cc n) addr d)))
  ∧ (∀ c addr h, Happens (.protectionFault (.core c) addr) (fun d => d.boot.running && adopting c (fault c addr d) == some h)
      (fun d => failHandover 4 h (fault c addr d)))
  ∧ ∀ a addr x, Happens (.protectionFault (.applet a) addr) (fun d => d.boot.running && appletAt d a == some x)
      (fun d => endActivation a End.cluster 0 0 []
        (logAt (BitVec.ofNat 8 (0x10 + x.cluster)) 0 (word (Config.unstated 40 [a.tenant.toNat, a.id.toNat])) addr false d))

/-- Sources confirm, clear, latch and are held; BLANK applies no response; responses run to their restart, while the ROM runs by the restart of
R162; fuses are sensed again (R20, R29, R136-R138, R162, R476-R505, R509). -/
def Obligations.TamperEventsHappen : Prop :=
  (∀ (src : Source) v, Happens (.tamperConfirm src v)
      (fun d => !isEvent src.val && !(srcState d src.val).confirmed && answersNow src.val d && d.boot.running)
      (fun d => answer (confirmationOf src.val (sensedValue src.val v) d) (confirmed src.val (sensedValue src.val v) d)))
  ∧ (∀ (src : Source) v, Happens (.tamperConfirm src v)
      (fun d => !isEvent src.val && !(srcState d src.val).confirmed && answersNow src.val d && !d.boot.running)
      (fun d => latchSource (confirmationOf src.val (sensedValue src.val v) d) (confirmed src.val (sensedValue src.val v) d)))
  ∧ (∀ (src : Source) v, Happens (.tamperConfirm src v)
      (fun d => !isEvent src.val && !(srcState d src.val).confirmed && watched d src.val && !srcDisabled d src.val && d.lifecycle == .blank)
      (fun d => alertBit Alert.tamper (confirmed src.val (sensedValue src.val v) d)))
  ∧ (∀ (src : Source) v, Happens (.tamperConfirm src v) (fun d => src.val == 20 && !(srcState d src.val).confirmed && watched d src.val
        && !srcDisabled d src.val && d.lifecycle != .blank && !(srcState d src.val).responded)
      (fun d => { confirmed src.val v d with tamper := { (confirmed src.val v d).tamper with underHold := some (confirmationOf src.val v d) } }))
  ∧ (∀ (src : Source) v, Happens (.tamperEvent src v) (fun d => isEvent src.val && answersNow src.val d && d.boot.running)
      (fun d => answer (confirmationOf src.val v d) (confirmed src.val v d)))
  ∧ (∀ (src : Source) v, Happens (.tamperEvent src v)
      (fun d => src.val == 16 && watched d 16 && !srcDisabled d 16 && d.lifecycle != .blank && d.boot.running)
      (fun d => answer (confirmationOf 16 1 d) (flashRetry (confirmed 16 1 d))))
  ∧ (∀ (src : Source), Happens (.tamperClear src) (fun _ => true) (fun d =>
      let x := modSrc src.val (fun t => { t with confirmed := false, responded := false, count := 0 }) d
      { x with tamper := { x.tamper with barred := x.tamper.barred.filter (· != src.val) } }))
  ∧ (∀ x, Happens .vddUnderHoldExpiry (fun d => d.tamper.underHold == some x && decide (x.tick + 64 ≤ d.now))
      (fun d =>
        let y : Dev := { d with tamper := { d.tamper with underHold := none } }
        if d.boot.running then answer x y else latchSource x y))
  ∧ Happens .tamperHoldEnd (fun d => decide (d.tamper.holdEnd ≤ d.now)) (fun d => { d with tamper := { d.tamper with holdEnd := 0 } })
  ∧ (∀ (src : Source) v, Happens (.sensorSelfCheck [(src, v)])
      (fun d => !isEvent src.val && !(srcState d src.val).confirmed && answersNow src.val d && d.boot.running)
      (fun d => answer (confirmationOf src.val (sensedValue src.val v) d) (confirmed src.val (sensedValue src.val v) d)))
  ∧ (∀ fuse l, Restarts (.tamperResponseSequence fuse false) (fun d => d.tamper.response == some l) (fun d => runResponse l fuse (finishWrites d)))
  ∧ (∀ fuse l, Restarts (.tamperResponseSequence fuse true) (fun d => d.tamper.response == some l) (fun d => enterBackup (finishWrites d)))
  ∧ (∀ fuse cut l, Restarts (.tamperResponseSequence fuse cut)
      (fun d => d.tamper.response.isNone && d.power.state == .active && !d.boot.running && latchedResponse d == some l)
      (restart 5 (if l = 3 then Cause.tamperL3 else Cause.tamperL2)))
  ∧ (∀ temp reads, Happens (.fuseResense temp reads) (fun d => resenses d && bandsAt d.fuse.above temp == d.fuse.above) (setTemp temp))
  ∧ ∀ temp reads s, resenses s.dev = true → bandsAt s.dev.fuse.above temp ≠ s.dev.fuse.above →
      (let x := setTemp temp { s.dev with fuse := { s.dev.fuse with above := bandsAt s.dev.fuse.above temp } }
       let rs := senseAll x reads
       let y := logAt Core.sec 88 (word (Config.unstated 88 [])) (word (drifted x rs).length) false (keepShadow rs x)
       match drifted x rs with
       | [] => exec (.fuseResense temp reads) s = .next { s with dev := y }
       | i :: _ =>
         let z := tamperEvent Src.drift i y
         let w := driftState x.lifecycle (if x.lifecycle.code < y.lifecycle.code then driftFirst z else z)
         exec (.fuseResense temp reads) s = .next (if w.boot.running && outsideMatrix w then { s with dev := matrixFault w, flow := {} }
           else { s with dev := w }))

/-- A pattern switches at its K1, its outcome waiting under PF_N; a handover reaches its seam point with its record, is adopted when the record
fits, fails or runs out of time, and waits for a tamper response that is due; a succession lapses (R17, R551, R552, R566, R591-R597, R646, R724). -/
def Obligations.UpdateEventsHappen : Prop :=
  let settles (c : Instr) (s : State) (d : Dev) : Prop :=
    exec c s = .next { s with dev := (settlePower d).1, flow := if (settlePower d).2 then {} else s.flow }
  (∀ x, Happens .patternSwitch (fun d => d.pat.due == some x && decide (x.k1 ≤ d.now) && d.boot.running)
    (fun d =>
      let b := bank d x.inB
      let y := logAt Core.sch 23 (word x.gen) (word x.k1) false (adopt b.image x.gen x.k1 x.inB d)
      let z := attnBoth Attn.pattern (patternRecord x.gen d.pat.gen (flag x.revert) x.k1 b.digest y)
      match x.req with
      | some r => heldOutcome z (complete r St.ok ([mkWord [(47, 24, x.gen)], word x.k1] ++ bytesWords b.digest) 60 z)
      | none => z))
  ∧ (∀ h, Happens .handoverSeamPoint (fun d => d.fw.handover == some h && h.phase == 2 && !responseDue d)
      (fun d => toPhase 4 (toPhase 3 { d with fw := { d.fw with
        handover := some { h with seamTick := d.now, record := handoverRecord d h } } })))
  ∧ (∀ h s, s.dev.fw.handover = some h → h.phase = 2 → h.began + msTicks 50 ≤ s.dev.now → settles .handoverQuiesceTimeout s (failHandover 7 h s.dev))
  ∧ (∀ h s, s.dev.fw.handover = some h → h.phase = 4 → h.seamTick + msTicks 200 ≤ s.dev.now →
      settles .handoverMonitorTimeout s (failHandover 5 h s.dev))
  ∧ (∀ h pause s, s.dev.fw.handover = some h → h.phase = 4 → responseDue s.dev = false → recordFits h = true →
      settles (.handoverAdoption 0 pause) s (adoptImage h pause s.dev))
  ∧ (∀ h pause s, s.dev.fw.handover = some h → h.phase = 4 → responseDue s.dev = false → recordFits h = false →
      settles (.handoverAdoption 0 pause) s (failHandover 1 h s.dev))
  ∧ (∀ h reason pause s, s.dev.fw.handover = some h → h.phase = 4 → responseDue s.dev = false → reason ≠ 0 →
      settles (.handoverAdoption reason pause) s (failHandover reason.toNat h s.dev))
  ∧ (∀ reason pause s, responseDue s.dev = true → exec (.handoverAdoption reason pause) s = .next s)
  ∧ ∀ s, s.dev.succ.state = 1 → s.dev.succ.committing = false → s.dev.succ.began + 2 ^ 24 ≤ s.dev.now →
      settles .successionTimeout s (abortOutgoing s.dev)

/-- A timer trigger at a multiple of its period, the start of a queued activation, a checkpoint, the return of a service call
(R654, R660, R664-R671). -/
def Obligations.AppletEventsHappen : Prop :=
  (∀ a x, Happens (.appletTimerTrigger a)
    (fun d => appletAt d a == some x && x.enabled.contains 2 && decide (x.timerAt < d.now / x.period))
    (fun d => fireTrigger 2 [d.time.tick] a (modApplet a (fun x => { x with timerAt := d.now / x.period }) d)))
  ∧ (∀ a x t l, Happens (.appletActivationStart a)
      (fun d => appletAt d a == some x && x.act == some t && longAt d t.handle == some l && !t.started && l.state == .queued
        && (l.internal || decide (d.now ≤ l.deadline)) && x.loaded && !appletHalted d x && !dispatchStopped d && coresRun d && !laneTimeUp d d.pat.gen a.tenant)
      (beginActivation a x t l))
  ∧ (∀ a t, Happens (.fuelCheckpoint a)
      (fun d => (appletAt d a).bind (·.act) == some t && t.started && t.call.isNone && checkpointDue t && (longAt d t.handle).any longRunning)
      (fun d => closeMixed (appletPoint a (chargeApplet a (setAct a { t with mark := t.mark - 4096 } d)))))
  ∧ ∀ a x t c y, Happens (.serviceCallReturn a)
      (fun d => appletAt d a == some x && x.act == some t && t.call == some c && !appletHalted d x && coresRun d
        && d.done.find? (fun y => y.req.origin == .applet a && y.req.id == c.id) == some y)
      (fun d =>
        let regs := setAt (setAt (setAt t.regs 0 (word (wireStatus y.req y.status).toNat)) 1 (word y.bytes)) 2 (replyH2 y.req.gen y.tick)
        let z := modApplet a (fun x => { x with
            act := some { t with regs := regs, call := none }
            data := putBytes x.data (6 * c.buffer) ((wordsBytes y.words).take (min y.bytes c.capacity)) })
          (freeSlot y.req.id { d with done := d.done.erase y })
        closeMixed (appletPoint a (modLong t.handle (fun l => { l with units := l.units + 1 }) z)))

/-- Register arithmetic and logic of applets: rd alone takes the operation's value, modulo 2^48; a zero divisor gives all ones or the
dividend; shifts take the low six bits (R656-R658). -/
def Obligations.AppletRegisterArithmetic : Prop :=
  ∀ (a : AppletRef) (rd ra rb : BitVec 4),
    WritesReg (.add a rd ra rb) a (.add rd ra rb) 1 rd (fun t => reg t ra + reg t rb)
    ∧ WritesReg (.sub a rd ra rb) a (.sub rd ra rb) 1 rd (fun t => reg t ra - reg t rb)
    ∧ WritesReg (.and a rd ra rb) a (.and rd ra rb) 1 rd (fun t => reg t ra &&& reg t rb)
    ∧ WritesReg (.or a rd ra rb) a (.or rd ra rb) 1 rd (fun t => reg t ra ||| reg t rb)
    ∧ WritesReg (.xor a rd ra rb) a (.xor rd ra rb) 1 rd (fun t => reg t ra ^^^ reg t rb)
    ∧ WritesReg (.shl a rd ra rb) a (.shl rd ra rb) 1 rd (fun t => BitVec.ofNat 48 ((reg t ra).toNat * 2 ^ ((reg t rb).toNat % 64)))
    ∧ WritesReg (.shr a rd ra rb) a (.shr rd ra rb) 1 rd (fun t => BitVec.ofNat 48 ((reg t ra).toNat / 2 ^ ((reg t rb).toNat % 64)))
    ∧ WritesReg (.sar a rd ra rb) a (.sar rd ra rb) 1 rd (fun t => BitVec.ofInt 48 ((reg t ra).toInt / 2 ^ ((reg t rb).toNat % 64)))
    ∧ WritesReg (.mul a rd ra rb) a (.mul rd ra rb) 2 rd (fun t => BitVec.ofNat 48 ((reg t ra).toNat * (reg t rb).toNat))
    ∧ WritesReg (.mulhu a rd ra rb) a (.mulhu rd ra rb) 2 rd (fun t => BitVec.ofNat 48 ((reg t ra).toNat * (reg t rb).toNat / 2 ^ 48))
    ∧ WritesReg (.divu a rd ra rb) a (.divu rd ra rb) 8 rd (fun t =>
        if reg t rb = 0 then BitVec.allOnes 48 else BitVec.ofNat 48 ((reg t ra).toNat / (reg t rb).toNat))
    ∧ WritesReg (.remu a rd ra rb) a (.remu rd ra rb) 8 rd (fun t =>
        if reg t rb = 0 then reg t ra else BitVec.ofNat 48 ((reg t ra).toNat % (reg t rb).toNat))
    ∧ WritesReg (.slt a rd ra rb) a (.slt rd ra rb) 1 rd (fun t => if (reg t ra).toInt < (reg t rb).toInt then 1 else 0)
    ∧ WritesReg (.sltu a rd ra rb) a (.sltu rd ra rb) 1 rd (fun t => if (reg t ra).toNat < (reg t rb).toNat then 1 else 0)

/-- Arithmetic with an immediate: sign-extended in ADDI, SLTI, SLTIU and LDI, zero-extended in ANDI, ORI and XORI, a shift count in
SHLI, SHRI and SARI; LDX shifts rd up by 14 (R656-R658). -/
def Obligations.AppletImmediateArithmetic : Prop :=
  ∀ (a : AppletRef) (rd ra : BitVec 4) (imm : BitVec 10) (im14 : BitVec 14),
    WritesReg (.addi a rd ra imm) a (.addi rd ra imm) 1 rd (fun t => BitVec.ofInt 48 ((reg t ra).toNat + imm.toInt))
    ∧ WritesReg (.andi a rd ra imm) a (.andi rd ra imm) 1 rd (fun t => reg t ra &&& BitVec.ofNat 48 imm.toNat)
    ∧ WritesReg (.ori a rd ra imm) a (.ori rd ra imm) 1 rd (fun t => reg t ra ||| BitVec.ofNat 48 imm.toNat)
    ∧ WritesReg (.xori a rd ra imm) a (.xori rd ra imm) 1 rd (fun t => reg t ra ^^^ BitVec.ofNat 48 imm.toNat)
    ∧ WritesReg (.shli a rd ra imm) a (.shli rd ra imm) 1 rd (fun t => BitVec.ofNat 48 ((reg t ra).toNat * 2 ^ (imm.toNat % 64)))
    ∧ WritesReg (.shri a rd ra imm) a (.shri rd ra imm) 1 rd (fun t => BitVec.ofNat 48 ((reg t ra).toNat / 2 ^ (imm.toNat % 64)))
    ∧ WritesReg (.sari a rd ra imm) a (.sari rd ra imm) 1 rd (fun t => BitVec.ofInt 48 ((reg t ra).toInt / 2 ^ (imm.toNat % 64)))
    ∧ WritesReg (.slti a rd ra imm) a (.slti rd ra imm) 1 rd (fun t => if (reg t ra).toInt < imm.toInt then 1 else 0)
    ∧ WritesReg (.sltiu a rd ra imm) a (.sltiu rd ra imm) 1 rd (fun t => if (reg t ra).toNat < (BitVec.ofInt 48 imm.toInt).toNat then 1 else 0)
    ∧ WritesReg (.ldi a rd im14) a (.ldi rd im14) 1 rd (fun _ => BitVec.ofInt 48 im14.toInt)
    ∧ WritesReg (.ldx a rd im14) a (.ldx rd im14) 1 rd (fun t => BitVec.ofNat 48 ((reg t rd).toNat * 2 ^ 14 + im14.toNat))

/-- Loads and stores of words and bytes at ra plus the sign-extended immediate, inside data memory; a byte lies as R5 orders them; no
other word or byte changes (R5, R656-R659). -/
def Obligations.AppletMemoryInstructions : Prop :=
  ∀ (a : AppletRef) (rd ra : BitVec 4) (imm : BitVec 10),
    (∀ s x t, atInstr a (.ld rd ra imm) 1 x t s.dev → memAddr t ra imm < x.data.length → t.pc + 1 < x.code.length →
      exec (.ld a rd ra imm) s = .next { s with dev := actAfter a (ran t 1 (t.pc + 1) (setAt t.regs rd.toNat (wd x.data (memAddr t ra imm)))) s.dev })
    ∧ (∀ s x t, atInstr a (.st rd ra imm) 1 x t s.dev → memAddr t ra imm < x.data.length → t.pc + 1 < x.code.length →
      exec (.st a rd ra imm) s = .next { s with dev := dataAfter a (ran t 1 (t.pc + 1) t.regs) (setAt x.data (memAddr t ra imm) (reg t rd)) s.dev })
    ∧ (∀ s x t, atInstr a (.ldb rd ra imm) 1 x t s.dev → memAddr t ra imm < 6 * x.data.length → t.pc + 1 < x.code.length →
      (let regs := setAt t.regs rd.toNat ((byteAt x.data (memAddr t ra imm)).setWidth 48)
       exec (.ldb a rd ra imm) s = .next { s with dev := actAfter a (ran t 1 (t.pc + 1) regs) s.dev }))
    ∧ ∀ s x t, atInstr a (.stb rd ra imm) 1 x t s.dev → memAddr t ra imm < 6 * x.data.length → t.pc + 1 < x.code.length →
      ∃ data, exec (.stb a rd ra imm) s = .next { s with dev := dataAfter a (ran t 1 (t.pc + 1) t.regs) data s.dev }
        ∧ data.length = x.data.length
        ∧ ∀ n, n < 6 * x.data.length → byteAt data n = if n = memAddr t ra imm then (reg t rd).setWidth 8 else byteAt x.data n

/-- Branches on zero, sign and comparison, jumps and calls: the PC alone changes, and W15 in CALL and CALLR (R656-R658). -/
def Obligations.AppletControlInstructions : Prop :=
  ∀ (a : AppletRef) (rd ra : BitVec 4) (o10 : BitVec 10) (o14 : BitVec 14) (target : BitVec 15),
    MovesPc (.nop a) a .nop (fun t => t.pc + 1)
    ∧ MovesPc (.beqz a ra o14) a (.beqz ra o14) (fun t => branchTo (reg t ra = 0) o14.toInt t)
    ∧ MovesPc (.bnez a ra o14) a (.bnez ra o14) (fun t => branchTo (reg t ra ≠ 0) o14.toInt t)
    ∧ MovesPc (.bltz a ra o14) a (.bltz ra o14) (fun t => branchTo ((reg t ra).toInt < 0) o14.toInt t)
    ∧ MovesPc (.bgez a ra o14) a (.bgez ra o14) (fun t => branchTo (0 ≤ (reg t ra).toInt) o14.toInt t)
    ∧ MovesPc (.beq a rd ra o10) a (.beq rd ra o10) (fun t => branchTo (reg t rd = reg t ra) o10.toInt t)
    ∧ MovesPc (.bne a rd ra o10) a (.bne rd ra o10) (fun t => branchTo (reg t rd ≠ reg t ra) o10.toInt t)
    ∧ MovesPc (.blt a rd ra o10) a (.blt rd ra o10) (fun t => branchTo ((reg t rd).toInt < (reg t ra).toInt) o10.toInt t)
    ∧ MovesPc (.bltu a rd ra o10) a (.bltu rd ra o10) (fun t => branchTo ((reg t rd).toNat < (reg t ra).toNat) o10.toInt t)
    ∧ MovesPc (.jmp a target) a (.jmp target) (fun _ => target.toNat)
    ∧ MovesPc (.jr a ra) a (.jr ra) (fun t => (reg t ra).toNat % 32768)
    ∧ Executes (.call a target) a (.call target) 1 (fun _ => target.toNat) (fun t => setAt t.regs 15 (BitVec.ofNat 48 (t.pc + 1)))
    ∧ Executes (.callr a ra) a (.callr ra) 1 (fun t => (reg t ra).toNat % 32768) (fun t => setAt t.regs 15 (BitVec.ofNat 48 (t.pc + 1)))

/-- TICK, FUEL and RAND read into rd; HALT and TRAP end the activation; SVC hands a command to SCH and waits; a RAND that its
fuel cannot pay ends the activation with FUEL_OUT (R656, R658-R661, R671, R680). -/
def Obligations.AppletSystemInstructions : Prop :=
  ∀ (a : AppletRef) (rd : BitVec 4) (imm : BitVec 14) (opcode : BitVec 16),
    (∀ s x t, atInstr a (.tick rd) 1 x t s.dev → t.pc + 1 < x.code.length →
      exec (.tick a rd) s = .next { s with dev := actAfter a (ran t 1 (t.pc + 1) (setAt t.regs rd.toNat s.dev.time.tick)) s.dev })
    ∧ WritesReg (.fuel a rd) a (.fuel rd) 1 rd (fun t => BitVec.ofNat 48 (t.fuel - 1))
    ∧ (∀ s x t, atInstr a (.rand rd) 4 x t s.dev → t.pc + 1 < x.code.length →
      exec (.rand a rd) s = .next { s with dev := actAfter a (ran t 4 (t.pc + 1) (setAt t.regs rd.toNat (draw s.dev).1)) (draw s.dev).2 })
    ∧ (∀ s x t, atInstr a .halt 1 x t s.dev → (wd t.regs 2).toNat ≤ 4096 →
      6 * (wd t.regs 1).toNat + (wd t.regs 2).toNat ≤ 6 * x.data.length →
      (let out := bytesWords (dataBytes x (wd t.regs 1) (wd t.regs 2).toNat)
       exec (.halt a) s = .next { s with dev := endActivation a End.halt 0 (wd t.regs 2).toNat out (charged a 1 t s.dev) }))
    ∧ (∀ s x t, atInstr a (.trap imm) 1 x t s.dev →
      exec (.trap a imm) s = .next { s with dev := endActivation a End.trap imm.toNat 0 [] (charged a 1 t s.dev) })
    ∧ (∀ s x t, atInstr a (.svc opcode) 16 x t s.dev → t.pc + 1 < x.code.length →
      inData x (wd t.regs 1) (wd t.regs 2).toNat = true → inData x (wd t.regs 3) (wd t.regs 4).toNat = true →
      (let d := charged a 16 t s.dev
       let r := serviceReq a x { t with fuel := t.fuel - 16 } opcode d
       let waits : Activation := { t with
         fuel := t.fuel - 16, pc := t.pc + 1, call := some { id := d.nextId, buffer := (wd t.regs 3).toNat, capacity := (wd t.regs 4).toNat } }
       exec (.svc a opcode) s = .next { s with dev := serviceAccepted r (wd t.regs 5) (chargeApplet a
         (traceT (BitVec.ofNat 8 (0x10 + x.cluster)) 212 a.tenant (word a.tenant.toNat) (word opcode.toNat)
           (setAct a waits { d with nextId := d.nextId + 1 }))) }))
    ∧ ∀ s x t, executing s.dev a = some (x, t) → x.code[t.pc]? = some (encodeApplet (.rand rd)) → t.fuel < 4 →
      exec (.rand a rd) s = .next { s with dev := endActivation a End.fuelOut 0 0 [] s.dev }

/-- TAP instructions where boundary scan is open and where it is closed; IDCODE and BYPASS everywhere; Test-Logic-Reset ends the
attachment (R684-R689, R697). -/
def Obligations.TapInstructionsHappen : Prop :=
  Happens .extest (fun d => tapLive d && tapOpen d) (fun d => setIr 0x00 (noteScan (attach d)))
  ∧ Happens .clamp (fun d => tapLive d && tapOpen d) (fun d => setIr 0x03 (noteScan (attach d)))
  ∧ Happens .highz (fun d => tapLive d && tapOpen d) (fun d => setIr 0x04 (noteScan (attach d)))
  ∧ Happens .dbgSelect (fun d => tapLive d && tapOpen d) (fun d => setIr 0x10 (attach d))
  ∧ Happens .samplePreload (fun d => tapLive d && tapOpen d)
      (fun d => setIr 0x01 (noteScan { d with dbg := { d.dbg with boundary := Config.pins d.now } }))
  ∧ (∀ c ∈ [Instr.extest, .clamp, .highz, .dbgSelect, .samplePreload], Happens c (fun d => tapLive d && !tapOpen d) (setIr 0x1F))
  ∧ Happens .idcode tapLive (setIr 0x02)
  ∧ Happens .bypass tapLive (setIr 0x1F)
  ∧ Happens .testLogicReset tapLive (fun d => coresResume (endAttachment d))

/-- Debug requests: what they read, write, halt and answer; SEC is refused outside MANUFACTURE; a request during another answers
PENDING (R686, R690-R695, R697, R701). -/
def Obligations.DebugRequestsHappen : Prop :=
  (∀ req core, Happens (.dbgNop req core) (dbgReady core) (fun d => result (if req = 0 then 0 else 4) (echoed core 0 d)))
  ∧ (∀ core addr, Happens (.dbgRead core addr) (dbgReady core) (fun d =>
      if coreReaches core addr then
        let x := echoed core addr d
        let y := { x with dbg := { x.dbg with data := memWord d core addr } }
        if readHasEffect core addr then
          result 2 (if y.dbg.peeked then y else debugEvent 6 { y with dbg := { y.dbg with peeked := true } })
        else result 0 y
      else result 5 (echoed core addr d)))
  ∧ (∀ core addr v, Happens (.dbgWrite core addr v) (dbgReady core) (fun d =>
      if coreReaches core addr then
        result 0 { echoed core addr d with dbg := { (echoed core addr d).dbg with memory := putWord (memKey core addr) v d.dbg.memory } }
      else result 5 (echoed core addr d)))
  ∧ (∀ core, Happens (.dbgHalt core false) (fun d => dbgReady core d && haltAllowed d core.toNat) (fun d => haltCore core.toNat (echoed core 0 d)))
  ∧ (∀ core, Happens (.dbgHalt core true) (fun d => dbgReady core d && haltAllowed d core.toNat)
      (fun d => result 1 { echoed core 0 d with dbg := { (echoed core 0 d).dbg with held := some core } }))
  ∧ (∀ atomic, Happens (.dbgHalt 1 atomic) (fun d => dbgReady 1 d && d.boot.running && d.lifecycle != .manufacture)
      (fun d => result 4 (haltRecord 4 (echoed 1 0 d))))
  ∧ (∀ core, Happens (.dbgHaltDeferred true) (fun d => d.dbg.held == some core)
      (fun d => haltCore core.toNat { d with dbg := { d.dbg with held := none } }))
  ∧ (∀ core, Happens (.dbgHaltDeferred false) (fun d => d.dbg.held == some core)
      (fun d => result 3 (haltRecord 4 { d with dbg := { d.dbg with held := none } })))
  ∧ (∀ core, Happens (.dbgResume core) (fun d => dbgReady core d && d.dbg.halted.contains core.toNat)
      (fun d => result 0 (haltRecord 5 (coresResume { echoed core 0 d with dbg := { (echoed core 0 d).dbg with
        halted := d.dbg.halted.filter (· != core.toNat) } }))))
  ∧ (∀ core, Happens (.dbgStep core) (dbgReady core) (fun d => result (if d.dbg.halted.contains core.toNat then 0 else 4) (echoed core 0 d)))
  ∧ (∀ core, Happens (.dbgStatus core) (dbgReady core)
      (fun d => result 0 { echoed core 0 d with dbg := { (echoed core 0 d).dbg with data := statusData d } }))
  ∧ ∀ core, Happens (.dbgStatus core) (fun d => tapLive d && d.dbg.attached && d.dbg.ir == 0x10 && d.dbg.held.isSome) (result 1)

/-- A step with a command in front is that command's meaning on the rest of the queue; with none the block idles (the model's choice, log 32). -/
def Obligations.StepRunsFront : Prop :=
  (∀ c rest s, s.pending = c :: rest → step s = exec c { s with pending := rest }) ∧ ∀ s, s.pending = [] → step s = .next s

/-- Every command of every row completes with a next state, whatever the state; it leaves the queue alone, and rings and mailboxes
change only by a frame, a reply, a release or a restart. -/
def Obligations.EveryCommandCompletes : Prop :=
  ∀ c s, ∃ t, exec c s = .next t ∧ t.pending = s.pending
    ∧ ((∀ p o ws, c ≠ .requestFrame p o ws) → (∀ p, c ≠ .replyEnqueue p) → (∀ p tag, c ≠ .replyRelease p tag) →
        t.flow = s.flow ∨ t.flow = {})

/-- R198 as an invariant of every step: HOST, MAILBOX and PENDING of each port add up to T; a reply moves one unit from MAILBOX to PENDING
and a release one from PENDING to HOST, whatever the reply's status. -/
def Obligations.CreditsConserved : Prop :=
  (∀ s s', creditsOk s.flow = true → step s = .next s' → creditsOk s'.flow = true)
  ∧ (∀ f p, creditsOk f = true → hostCredits p f + (f.port p).mailbox + (f.port p).ring.length = p.credits)
  ∧ (∀ p s s', exec (.replyEnqueue p) s = .next s' → s'.flow = s.flow
      ∨ ((s'.flow.port p).mailbox + 1 = (s.flow.port p).mailbox ∧ (s'.flow.port p).ring.length = (s.flow.port p).ring.length + 1
        ∧ s'.flow.port p.other = s.flow.port p.other))
  ∧ (∀ p tag s s', exec (.replyRelease p tag) s = .next s' → (s'.flow.port p).ring = (s.flow.port p).ring
      ∨ ((s'.flow.port p).ring.length + 1 = (s.flow.port p).ring.length ∧ (s'.flow.port p).mailbox = (s.flow.port p).mailbox
        ∧ s'.flow.port p.other = s.flow.port p.other))
  ∧ ∀ p s x, firstFor p s.dev.done = some x → 0 < (s.flow.port p).mailbox →
      ringUsed (s.flow.port p) + (wireReply p x s.dev).1.length ≤ p.ringSize → deliveryPaused x s.dev = false →
      ∃ s', exec (.replyEnqueue p) s = .next s' ∧ (s'.flow.port p).mailbox + 1 = (s.flow.port p).mailbox
        ∧ (s'.flow.port p).ring.length = (s.flow.port p).ring.length + 1

/-- What reset leaves: both ports' ATTN_MASK at 0xFFF and CREDIT with all of T on the host's side, M_ALERT's mask at 0xFFF, no command in
the device, no waiting one, the indexed stores in canonical form. ATTN_MASK's bits [11:0] read what a REG_WRITE puts there, the others zero. -/
def Obligations.ResetAndMaskValues : Prop :=
  (∀ p, portField State.reset p 2 = 0xFFF) ∧ creditReg State.reset .a = 0x40400000 ∧ creditReg State.reset .b = 0x20200000
  ∧ creditsOk State.reset.flow = true ∧ mgmtReg State.reset.dev 2 = 0xFFF ∧ State.reset.pending = [] ∧ State.reset.dev.cmds = []
  ∧ Memory.wf State.reset.dev = true
  ∧ ∀ p v s, portLive s.dev p = true → ∃ t, exec (.regWrite (.port p) 2 v) s = .next t ∧ portReg t p 2 = (v &&& 0xFFF)

/-- Every instruction's encoding decodes to it, with every operand at every value (R656, R657). -/
def Obligations.AppletDecodeOfEncode : Prop := ∀ i : AppletInstr, decodeApplet (encodeApplet i) = some i

/-- A word that decodes is the encoding of what it decodes to: no reserved opcode and no bit that a format requires to be zero passes (R657). -/
def Obligations.AppletEncodeOfDecode : Prop := ∀ w i, decodeApplet w = some i → encodeApplet i = w

/-- Words of the worked case of the applet chapter, and words that a load refuses. -/
def Obligations.AppletWordsDecode : Prop :=
  decodeApplet 0x758100 = some (.ldi 6 0x100) ∧ decodeApplet 0x61DC28 = some (.shli 7 7 40) ∧ decodeApplet 0x85D800 = some (.st 7 6 0)
  ∧ decodeApplet 0x505800 = some (.addi 1 6 0) ∧ decodeApplet 0xE00701 = some (.svc 0x0701) ∧ decodeApplet 0x040000 = some .halt
  ∧ decodeApplet 0x0C0000 = none ∧ decodeApplet 0x040001 = none

/-- The two indexed stores, general counters and words left by debug writes: a write keeps the canonical form, reads back, and leaves every
other place as it was. -/
def Obligations.IndexedStoresCanonical : Prop :=
  (∀ x cs, countersWf cs = true → countersWf (putCounter x cs) = true ∧ counterAt (putCounter x cs) x.index = x
    ∧ ∀ i, i ≠ x.index → counterAt (putCounter x cs) i = counterAt cs i)
  ∧ ∀ k v l, wordsWf l = true → wordsWf (putWord k v l) = true ∧ (putWord k v l).find? (fun x => x.1 == k) = some (k, v)
    ∧ ∀ j, j ≠ k → (putWord k v l).find? (fun x => x.1 == j) = l.find? (fun x => x.1 == j)

/-- R658: a jump, a taken branch or a fall-through past the code ends the activation with CODE_BOUNDS, an access past data memory with
DATA_BOUNDS, and the instruction has had no effect. -/
def Obligations.AppletBoundsFaults : Prop :=
  ∀ (a : AppletRef) (rd ra rb : BitVec 4) (imm : BitVec 10) (im14 : BitVec 14) (target : BitVec 15) (opcode : BitVec 16),
    faults (.jmp a target) a (.jmp target) 1 End.codeBounds (fun x _ => x.code.length ≤ target.toNat)
    ∧ faults (.call a target) a (.call target) 1 End.codeBounds (fun x _ => x.code.length ≤ target.toNat)
    ∧ faults (.jr a ra) a (.jr ra) 1 End.codeBounds (fun x t => x.code.length ≤ (reg t ra).toNat % 32768)
    ∧ faults (.callr a ra) a (.callr ra) 1 End.codeBounds (fun x t => x.code.length ≤ (reg t ra).toNat % 32768)
    ∧ faults (.beqz a ra im14) a (.beqz ra im14) 1 End.codeBounds (fun x t => x.code.length ≤ branchTo (reg t ra = 0) im14.toInt t)
    ∧ faults (.bnez a ra im14) a (.bnez ra im14) 1 End.codeBounds (fun x t => x.code.length ≤ branchTo (reg t ra ≠ 0) im14.toInt t)
    ∧ faults (.bltz a ra im14) a (.bltz ra im14) 1 End.codeBounds (fun x t => x.code.length ≤ branchTo ((reg t ra).toInt < 0) im14.toInt t)
    ∧ faults (.bgez a ra im14) a (.bgez ra im14) 1 End.codeBounds (fun x t => x.code.length ≤ branchTo (0 ≤ (reg t ra).toInt) im14.toInt t)
    ∧ faults (.beq a rd ra imm) a (.beq rd ra imm) 1 End.codeBounds (fun x t => x.code.length ≤ branchTo (reg t rd = reg t ra) imm.toInt t)
    ∧ faults (.bne a rd ra imm) a (.bne rd ra imm) 1 End.codeBounds (fun x t => x.code.length ≤ branchTo (reg t rd ≠ reg t ra) imm.toInt t)
    ∧ faults (.blt a rd ra imm) a (.blt rd ra imm) 1 End.codeBounds
        (fun x t => x.code.length ≤ branchTo ((reg t rd).toInt < (reg t ra).toInt) imm.toInt t)
    ∧ faults (.bltu a rd ra imm) a (.bltu rd ra imm) 1 End.codeBounds
        (fun x t => x.code.length ≤ branchTo ((reg t rd).toNat < (reg t ra).toNat) imm.toInt t)
    ∧ (∀ p ∈ [(Instr.nop a, AppletInstr.nop), (.add a rd ra rb, .add rd ra rb), (.sub a rd ra rb, .sub rd ra rb),
        (.and a rd ra rb, .and rd ra rb), (.or a rd ra rb, .or rd ra rb), (.xor a rd ra rb, .xor rd ra rb),
        (.shl a rd ra rb, .shl rd ra rb), (.shr a rd ra rb, .shr rd ra rb), (.sar a rd ra rb, .sar rd ra rb),
        (.slt a rd ra rb, .slt rd ra rb), (.sltu a rd ra rb, .sltu rd ra rb),
        (.addi a rd ra imm, .addi rd ra imm), (.andi a rd ra imm, .andi rd ra imm), (.ori a rd ra imm, .ori rd ra imm),
        (.xori a rd ra imm, .xori rd ra imm), (.shli a rd ra imm, .shli rd ra imm), (.shri a rd ra imm, .shri rd ra imm),
        (.sari a rd ra imm, .sari rd ra imm), (.slti a rd ra imm, .slti rd ra imm), (.sltiu a rd ra imm, .sltiu rd ra imm),
        (.ldi a rd im14, .ldi rd im14), (.ldx a rd im14, .ldx rd im14), (.tick a rd, .tick rd), (.fuel a rd, .fuel rd)],
        faults p.1 a p.2 1 End.codeBounds atLast)
    ∧ faults (.mul a rd ra rb) a (.mul rd ra rb) 2 End.codeBounds atLast
    ∧ faults (.mulhu a rd ra rb) a (.mulhu rd ra rb) 2 End.codeBounds atLast
    ∧ faults (.divu a rd ra rb) a (.divu rd ra rb) 8 End.codeBounds atLast
    ∧ faults (.remu a rd ra rb) a (.remu rd ra rb) 8 End.codeBounds atLast
    ∧ faults (.rand a rd) a (.rand rd) 4 End.codeBounds atLast
    ∧ faults (.svc a opcode) a (.svc opcode) 16 End.codeBounds (fun x t => atLast x t
        ∧ inData x (wd t.regs 1) (wd t.regs 2).toNat = true ∧ inData x (wd t.regs 3) (wd t.regs 4).toNat = true)
    ∧ faults (.ld a rd ra imm) a (.ld rd ra imm) 1 End.codeBounds (fun x t => atLast x t ∧ memAddr t ra imm < x.data.length)
    ∧ faults (.st a rd ra imm) a (.st rd ra imm) 1 End.codeBounds (fun x t => atLast x t ∧ memAddr t ra imm < x.data.length)
    ∧ faults (.ldb a rd ra imm) a (.ldb rd ra imm) 1 End.codeBounds (fun x t => atLast x t ∧ memAddr t ra imm < 6 * x.data.length)
    ∧ faults (.stb a rd ra imm) a (.stb rd ra imm) 1 End.codeBounds (fun x t => atLast x t ∧ memAddr t ra imm < 6 * x.data.length)
    ∧ faults (.ld a rd ra imm) a (.ld rd ra imm) 1 End.dataBounds (fun x t => x.data.length ≤ memAddr t ra imm)
    ∧ faults (.st a rd ra imm) a (.st rd ra imm) 1 End.dataBounds (fun x t => x.data.length ≤ memAddr t ra imm)
    ∧ faults (.ldb a rd ra imm) a (.ldb rd ra imm) 1 End.dataBounds (fun x t => 6 * x.data.length ≤ memAddr t ra imm)
    ∧ faults (.stb a rd ra imm) a (.stb rd ra imm) 1 End.dataBounds (fun x t => 6 * x.data.length ≤ memAddr t ra imm)

/-- R89: a pulse that passes the filter counts once, modulo 2^48, in every state but BACKUP and without any supply; a pulse that does not
pass changes nothing. -/
def Obligations.PulsesAreCounted : Prop :=
  (∀ low high t s, s.dev.power.state ≠ .off → s.dev.power.state ≠ .backup → filterWidth s.dev ≤ low → filterWidth s.dev ≤ high →
    ∃ d, exec (.spdPulse low high t) s = .next { s with dev := d } ∧ d.dist.pulses.toNat = (s.dev.dist.pulses.toNat + 1) % 2 ^ 48)
  ∧ (∀ low high t s, s.dev.power.state = .backup → exec (.spdPulse low high t) s = .next s)
  ∧ ∀ low high t s, low < filterWidth s.dev ∨ high < filterWidth s.dev → exec (.spdPulse low high t) s = .next s

/-- R486: in DEPARTED an effective level of L3 is executed as L2; elsewhere but in SCORCHED (log 21) the effective level is the higher of the
pattern's level and TAMPER_MIN. -/
def Obligations.DepartedTakesL3AsL2 : Prop :=
  (∀ d i, d.lifecycle = .departed → srcLevel d i = if max (srcPattern d i) (srcMin d i) = 3 then 2 else max (srcPattern d i) (srcMin d i))
  ∧ ∀ d i, d.lifecycle ≠ .departed → d.lifecycle ≠ .scorched → srcLevel d i = max (srcPattern d i) (srcMin d i)

/-- A restart closes the sessions of both ports, empties mailboxes, rings and refusal slots, resets DISCARD_COUNT, and ends commands and long
operations (R222, R265): shown of RESET_PIN, the core watchdogs, a core's protection fault, the return from thermal shutdown and both
tamper responses. -/
def Obligations.RestartsEmptyTheLink : Prop :=
  let empty (o : Out) : Prop := ∃ t, o = .next t ∧ t.flow = {} ∧ t.dev.cmds = [] ∧ t.dev.done = [] ∧ t.dev.held = [] ∧ t.dev.sched.longs = []
    ∧ ∀ p, (t.dev.port p).sessions = [] ∧ (t.dev.port p).discard = 0 ∧ (t.dev.port p).rx = []
  (∀ ns b s, 1000 ≤ ns → powered s.dev = true → empty (exec (.resetPin ns b) s))
  ∧ (∀ c served s, (∀ n, c ≠ .cc n) → powered s.dev = true → s.dev.boot.progress ≠ 0 → coreHalted c s.dev = false → adopting c s.dev = none →
      s.dev.boot.enteredAt ≤ served → served + 410 ≤ s.dev.now → empty (exec (.watchdogExpiry ⟨c, served⟩) s))
  ∧ (∀ c addr s, (∀ n, c ≠ .cc n) → s.dev.boot.running = true → s.dev.fw.handover = none → empty (exec (.protectionFault (.core c) addr) s))
  ∧ (∀ t s, t ≤ 2240 → s.dev.power.state = .shutdown → empty (exec (.thermalRestart t) s))
  ∧ ∀ fuse cut l s, s.dev.tamper.response = some l → empty (exec (.tamperResponseSequence fuse cut) s)

/-- Basting rounds wherever they fall and any byte order with odd strides leave a block's result that of AES: a basting round runs on a copy of
the state that is discarded, and a round's 16 bytes come out the same in every order (R358, R359). -/
def Obligations.LaneChoicesKeepTheBlock : Prop :=
  ∀ dec ks p blk, 2 ≤ ks.length → (∀ k ∈ ks, k.length = 16) → blk.length = 16 → (∀ o ∈ p.orders, o.2 % 2 = 1) →
    laneBlock dec ks p blk = if dec then aesDecKeys ks blk else aesEncKeys ks blk

/-- What the bytes of an SPI transaction command: REG_WRITE goes from its index upward and leaves out the reserved ones, incomplete words are
discarded, a reserved instruction or a wrong complement is LINK_ERROR; reads return the registers from the index upward, zero above 0x06,
and the head reply's words, zero past its end (R173-R176). -/
def Obligations.SpiTransactionsCommand : Prop :=
  (∀ p addr ws tail, addr < 65536 → tail.length < 6 →
    spiOps p (spiBytes p 0x02 addr (wordsBytes ws ++ tail)) = (ws.zipIdx.filter (fun x => decide (addr + x.2 ≤ 6))).map
      (fun x => .regWrite (BitVec.ofNat 8 (addr + x.2)) x.1))
  ∧ (∀ p addr ws tail, addr < 65536 → tail.length < 6 → spiOps p (spiBytes p 0x03 addr (wordsBytes ws ++ tail)) = [.frameWrite addr ws])
  ∧ (∀ p tag data, spiOps p (spiBytes p 0x05 (BitVec.toNat tag) data) = [.replyRelease tag])
  ∧ (∀ p i addr data, i.toNat = 0 ∨ 5 < i.toNat → spiOps p (spiBytes p i addr data) = [.linkError])
  ∧ (∀ i c x y data, c ≠ ~~~i → spiOps .a (i :: c :: x :: y :: data) = [.linkError])
  ∧ (∀ p s addr n k, k < n → portLive s.dev p = true → 6 < addr + k → (spiRead s p 0x01 addr n)[k]? = some 0)
  ∧ (∀ p s addr n k, k < n → portLive s.dev p = true → addr + k ≤ 6 → (spiRead s p 0x01 addr n)[k]? = some (portField s p (addr + k)))
  ∧ ∀ p s addr n k x, k < n → headReply (s.flow.port p) = some x → (spiRead s p 0x04 addr n)[k]? = some (wd x.words (addr + k))

/-- Without its group's rail a pin is high impedance; until the ports' logic runs a pin keeps its state of the table of R32; HIGHZ releases every
scanned pin; ATTN_N is low exactly while a cause that is not masked is set; TAMP_OUT is driven in every state with a supply (R32, R36, R181, R688). -/
def Obligations.PinsFollowTheirGroups : Prop :=
  (∀ s p, groupLive s.dev p.group = false → pinState s p = .z)
  ∧ (∀ s p, groupLive s.dev p.group = true → scanHoldsPorts s.dev = false → s.dev.boot.progress = 0 → p ≠ .mAlertN → p ≠ .tampOut →
      (∀ i, p ≠ .meshOut i) → pinState s p = p.atReset)
  ∧ (∀ s p, s.dev.dbg.ir = 0x04 → p ∈ scanPins → pinState s p = .z)
  ∧ (∀ s, groupLive s.dev .a = true → scanHoldsPorts s.dev = false → s.dev.boot.progress ≠ 0 →
      pinState s .aAttnN = .driven ((attnCause s .a &&& s.dev.portA.mask) == 0))
  ∧ (∀ s, groupLive s.dev .b = true → scanHoldsPorts s.dev = false → s.dev.boot.progress ≠ 0 →
      pinState s .bAttnN = .driven ((attnCause s .b &&& s.dev.portB.mask) == 0))
  ∧ ∀ s, s.dev.power.state ≠ .off → pinState s .tampOut = .driven (tampOut s.dev)
end

