-- ==== Sys2Proof/Laws/Bytes.lean ====
section
/-! SUPPORT. Words and their wire bytes (R5, R6). -/
namespace Sys2Proof.Machine

@[simp] theorem wordBytes_length (w : Word) : (wordBytes w).length = 6 := rfl

@[simp] theorem wordsBytes_nil : wordsBytes [] = [] := rfl

theorem wordsBytes_cons (w : Word) (ws : List Word) : wordsBytes (w :: ws) = wordBytes w ++ wordsBytes ws := rfl

@[simp] theorem wordsBytes_length (ws : List Word) : (wordsBytes ws).length = 6 * ws.length := by
  induction ws with
  | nil => rfl
  | cons w ws ih => rw [wordsBytes_cons, List.length_append, ih, wordBytes_length, List.length_cons]; omega

@[simp] theorem bytesWordsN_length (n : Nat) (bs : List Byte) : (bytesWordsN n bs).length = n := by
  induction n generalizing bs with
  | zero => rfl
  | succ n ih => simp [bytesWordsN, ih]

/-- The bytes of a word made from six bytes are those bytes. -/
theorem wordBytes_word (a b c d e f : Byte) : wordBytes (word (leNat [a, b, c, d, e, f])) = [a, b, c, d, e, f] := by
  have ha := a.isLt; have hb := b.isLt; have hc := c.isLt; have hd := d.isLt; have he := e.isLt; have hf := f.isLt
  have h : (word (leNat [a, b, c, d, e, f])).toNat =
      a.toNat + 256 * (b.toNat + 256 * (c.toNat + 256 * (d.toNat + 256 * (e.toNat + 256 * f.toNat)))) := by
    simp only [word, leNat, BitVec.toNat_ofNat]; omega
  simp only [wordBytes, h]
  refine List.cons_eq_cons.2 ⟨?_, List.cons_eq_cons.2 ⟨?_, List.cons_eq_cons.2 ⟨?_, List.cons_eq_cons.2 ⟨?_,
    List.cons_eq_cons.2 ⟨?_, List.cons_eq_cons.2 ⟨?_, rfl⟩⟩⟩⟩⟩⟩ <;>
    (apply BitVec.eq_of_toNat_eq; simp only [BitVec.toNat_ofNat]; omega)

/-- Whole words made from bytes have those bytes. -/
theorem wordsBytes_bytesWordsN (n : Nat) (bs : List Byte) (h : bs.length = 6 * n) : wordsBytes (bytesWordsN n bs) = bs := by
  induction n generalizing bs with
  | zero => simp_all [bytesWordsN]
  | succ n ih =>
    match bs, h with
    | a :: b :: c :: d :: e :: f :: rest, h =>
      have hr : rest.length = 6 * n := by simp only [List.length_cons] at h; omega
      have h6 : (a :: b :: c :: d :: e :: f :: rest).take 6 = [a, b, c, d, e, f] := by simp
      have hd : (a :: b :: c :: d :: e :: f :: rest).drop 6 = rest := by simp
      rw [bytesWordsN, wordsBytes_cons, h6, hd, ih rest hr, wordBytes_word]; rfl

/-- Putting bytes keeps the number of words. -/
@[simp] theorem putBytes_length (data : List Word) (n : Nat) (bs : List Byte) : (putBytes data n bs).length = data.length := by
  simp [putBytes]

/-- The bytes after bytes have been put inside data memory. -/
theorem wordsBytes_putBytes (data : List Word) (n : Nat) (bs : List Byte) (h : n + bs.length ≤ 6 * data.length) :
    wordsBytes (putBytes data n bs) = (wordsBytes data).take n ++ bs ++ (wordsBytes data).drop (n + bs.length) := by
  unfold putBytes
  apply wordsBytes_bytesWordsN
  simp only [List.length_append, List.length_take, List.length_drop, wordsBytes_length]
  omega

/-- One byte put reads back, and every other byte reads as before. -/
theorem byte_putBytes (data : List Word) (n m : Nat) (b : Byte) (h : n < 6 * data.length) (hm : m < 6 * data.length) :
    (wordsBytes (putBytes data n [b])).getD m 0 = if m = n then b else (wordsBytes data).getD m 0 := by
  rw [wordsBytes_putBytes data n [b] (by simp <;> omega)]
  have hl := wordsBytes_length data
  simp only [List.getD_eq_getElem?_getD, List.append_assoc, List.singleton_append, List.length_singleton]
  rcases Nat.lt_trichotomy m n with hlt | rfl | hgt
  · rw [List.getElem?_append_left (by simp <;> omega), List.getElem?_take_of_lt hlt, if_neg (by omega)]
  · rw [List.getElem?_append_right (by simp <;> omega)]
    simp only [List.length_take, hl, Nat.min_eq_left (Nat.le_of_lt h), Nat.sub_self, List.getElem?_cons_zero, Option.getD_some, if_true]
  · rw [List.getElem?_append_right (by simp <;> omega)]
    simp only [List.length_take, hl, Nat.min_eq_left (Nat.le_of_lt h)]
    rw [show m - n = (m - n - 1) + 1 by omega, List.getElem?_cons_succ, List.getElem?_drop, if_neg (by omega)]
    congr 2; omega

/-- The byte of a word of data memory is the byte of data memory as one string. -/
theorem getByte_eq (data : List Word) (n : Nat) : getByte data n = (wordsBytes data).getD n 0 := by
  induction data generalizing n with
  | nil =>
    have h6 : n % 6 < 6 := Nat.mod_lt _ (by decide)
    have hz : ∀ k, k < 6 → (wordBytes 0).getD k 0 = 0 := by decide
    simp only [getByte, wd, wordsBytes_nil, List.getD_nil]
    exact hz _ h6
  | cons w ws ih =>
    rw [wordsBytes_cons, List.getD_eq_getElem?_getD]
    by_cases hn : n < 6
    · rw [List.getElem?_append_left (by simpa using hn)]
      simp only [getByte, wd, Nat.div_eq_of_lt hn, Nat.mod_eq_of_lt hn, List.getD_eq_getElem?_getD]; rfl
    · have h1 : n / 6 = (n - 6) / 6 + 1 := by omega
      have h2 : n % 6 = (n - 6) % 6 := by omega
      rw [List.getElem?_append_right (by simp <;> omega), wordBytes_length, ← List.getD_eq_getElem?_getD, ← ih (n - 6)]
      simp only [getByte, wd, h1, h2, List.getD_cons_succ]

end Sys2Proof.Machine
end

