-- ==== Sys2Proof/Laws/Applets.lean ====
section
/-! SUPPORT. The shared operations of the applet machine: updates of one applet compose, and where an instruction leaves the PC. -/
namespace Sys2Proof.Machine

theorem modWhere_ref (a : AppletRef) (f g : Applet → Applet) (hf : ∀ x, (f x).ref = x.ref) (l : List Applet) :
    modWhere (fun x => x.ref == a) g (modWhere (fun x => x.ref == a) f l) = modWhere (fun x => x.ref == a) (fun x => g (f x)) l := by
  simp only [modWhere, List.map_map]
  apply List.map_congr_left
  intro x _
  by_cases h : x.ref = a <;> simp [h, hf]

theorem modApplet_modApplet (a : AppletRef) (f g : Applet → Applet) (hf : ∀ x, (f x).ref = x.ref) (d : Dev) :
    modApplet a g (modApplet a f d) = modApplet a (fun x => g (f x)) d := by
  simp [modApplet, modWhere_ref a f g hf]

@[simp] theorem setAct_setAct (a : AppletRef) (t u : Activation) (d : Dev) : setAct a u (setAct a t d) = setAct a u d := by
  unfold setAct
  rw [modApplet_modApplet]
  intro x; rfl

/-- The PC stays inside the code. -/
theorem goTo_in {a : AppletRef} {x : Applet} {n : Nat} {t : Activation} {d : Dev} (h : n < x.code.length) :
    goTo a x n t d = setAct a { t with pc := n } d := by simp [goTo, h]

/-- The PC would leave the code (R658). -/
theorem goTo_out {a : AppletRef} {x : Applet} {n : Nat} {t : Activation} {d : Dev} (h : x.code.length ≤ n) :
    goTo a x n t d = endActivation a End.codeBounds 0 0 [] d := by
  simp [goTo, Nat.not_lt.2 h]

theorem shlW_eq (v : Word) (n : Nat) : shlW v n = BitVec.ofNat 48 (v.toNat * 2 ^ (n % 64)) := by
  apply BitVec.eq_of_toNat_eq
  simp [shlW, Nat.shiftLeft_eq]

theorem shrW_eq (v : Word) (n : Nat) : shrW v n = BitVec.ofNat 48 (v.toNat / 2 ^ (n % 64)) := by
  apply BitVec.eq_of_toNat_eq
  simp only [shrW, BitVec.toNat_ushiftRight, Nat.shiftRight_eq_div_pow, BitVec.toNat_ofNat]
  exact (Nat.mod_eq_of_lt (Nat.lt_of_le_of_lt (Nat.div_le_self _ _) v.isLt)).symm

theorem sarW_eq (v : Word) (n : Nat) : sarW v n = BitVec.ofInt 48 (v.toInt / 2 ^ (n % 64)) := by
  simp [sarW, BitVec.sshiftRight, Int.shiftRight_eq_div_pow]

theorem sext10_add (w : Word) (imm : BitVec 10) : w + sext10 imm = BitVec.ofInt 48 (w.toNat + imm.toInt) := by
  rw [BitVec.ofInt_add, BitVec.ofInt_natCast, BitVec.ofNat_toNat, BitVec.setWidth_eq]; rfl

theorem sext10_slt (w : Word) (imm : BitVec 10) : w.slt (sext10 imm) = decide (w.toInt < imm.toInt) := by
  simp [BitVec.slt, sext10, BitVec.toInt_signExtend_of_le]

theorem zext10_eq (imm : BitVec 10) : zext10 imm = BitVec.ofNat 48 imm.toNat := by
  apply BitVec.eq_of_toNat_eq; simp [zext10]

end Sys2Proof.Machine
end

