-- ==== Sys2Proof/Laws/Commands.lean ====
section
/-! SUPPORT. What a served host command comes to, and what every row leaves of the queue and of the rings. -/
namespace Sys2Proof.Machine

theorem dims_ok {r : Req} {d : Dev} (h : dimsPass r d = true) : dims r d = .ok () := by
  unfold dimsPass at h; split at h <;> simp_all

/-- The outcome of a host command from the result of its checks and body. -/
def outcome (r : Req) (s : State) (x : Res (Dev × Done)) : Out :=
  .next { s with dev := settle r (taken r s.dev) x }

/-- A served command is its issuer check and then its body, over the device without the command. -/
theorem hostCmd_eq {op : Nat} {r : Req} {issuer : Dev → Res Unit} {body : Dev → Res (Dev × Done)} {s : State} (h : Served op r s.dev) :
    hostCmd op r issuer body s = outcome r s (do issuer (taken r s.dev); body (taken r s.dev)) := by
  obtain ⟨h1, h2, h3, h4, h5⟩ := h
  have h6 := dims_ok h5
  have h7 : ¬ r.deadline < (taken r s.dev).now := by simp [taken, Dev.now] at *; omega
  unfold taken at h6 h7
  simp only [hostCmd, lift, h1, h2, and_self, if_true, serve, h3, Bool.false_eq_true, if_false, if_neg h7, outcome, taken, bind,
    Except.bind, h6]

@[simp] theorem outcome_answer (r : Req) (s : State) (st : Byte) (ws : List Word) (n : Nat) (d : Dev) :
    outcome r s (.ok (d, .reply st ws n)) = ends st r ws n d s := rfl

@[simp] theorem outcome_later (r : Req) (s : State) (d : Dev) : outcome r s (.ok (d, .later)) = goesOn r d s := rfl

@[simp] theorem outcome_final (r : Req) (s : State) (g : Nat) (ws : List Word) (n : Nat) (d : Dev) :
    outcome r s (.ok (d, .final g ws n)) = answersIn g r ws n d s := rfl

@[simp] theorem outcome_wait (r : Req) (s : State) (d : Dev) : outcome r s (.ok (d, .wait)) = waits r d s := rfl

@[simp] theorem need_true (st : Byte) (n : Nat) : need true st n = .ok () := rfl

@[simp] theorem param_true : param true = .ok () := rfl

theorem need_ok {c : Bool} {st : Byte} {n : Nat} (h : c = true) : need c st n = .ok () := by simp [need, h]

theorem param_ok {c : Bool} (h : c = true) : param c = .ok () := by simp [param, need, h]

@[simp] theorem ok_bind {α β : Type} (x : α) (f : α → Res β) : ((.ok x : Res α) >>= f) = f x := rfl

/-- The next state has the same queue, and rings and mailboxes as they were or empty. -/
def Calm (s : State) (o : Out) : Prop := ∃ t, o = .next t ∧ t.pending = s.pending ∧ (t.flow = s.flow ∨ t.flow = {})

theorem calm_lift (f : Dev → Dev) (s : State) : Calm s (lift f s) := ⟨_, rfl, rfl, .inl rfl⟩

theorem calm_liftR (f : Dev → Dev × Bool) (s : State) : Calm s (liftR f s) := by
  refine ⟨_, rfl, rfl, ?_⟩
  dsimp only
  split
  · exact .inr rfl
  · exact .inl rfl

theorem calm_hostCmd (op : Nat) (r : Req) (issuer : Dev → Res Unit) (body : Dev → Res (Dev × Done)) (s : State) :
    Calm s (hostCmd op r issuer body s) := calm_lift _ _

theorem calm_restartCmd (op : Nat) (r : Req) (issuer : Dev → Res Unit) (body : Dev → Res (Dev × Bool)) (s : State) :
    Calm s (restartCmd op r issuer body s) := calm_liftR _ _

theorem calm_settleCmd (op : Nat) (r : Req) (issuer : Dev → Res Unit) (body : Dev → Res (Dev × Done)) (s : State) :
    Calm s (settleCmd op r issuer body s) := calm_restartCmd _ _ _ _ _

theorem calm_mgmtTouch (f : Dev → Dev) (s : State) : Calm s (mgmtTouch f s) := calm_lift _ _

theorem calm_debugReq (core : BitVec 4) (addr : BitVec 24) (f : Dev → Dev) (s : State) : Calm s (debugReq core addr f s) := calm_lift _ _

theorem calm_appletInstr (a : AppletRef) (i : AppletInstr) (cost : Nat) (body : Applet → Activation → Dev → Dev) (s : State) :
    Calm s (appletInstr a i cost body s) := calm_lift _ _

/-- Outside STANDBY a management transaction acts on the device as it is. -/
theorem mgmtTouch_awake {f : Dev → Dev} {s : State} (h : mgmtLive s.dev = true) (h' : s.dev.power.state ≠ .standby) :
    mgmtTouch f s = .next { s with dev := f s.dev } := by
  simp [mgmtTouch, lift, h, h']

end Sys2Proof.Machine
end

