-- ==== Sys2Proof/Laws/Encoding.lean ====
section
/-! SUPPORT. Applet instruction words as numbers: what each format's word is, and what a field of a word is. -/
namespace Sys2Proof

theorem append_toNat {m n : Nat} (x : BitVec m) (y : BitVec n) : (x ++ y).toNat = x.toNat * 2 ^ n + y.toNat := by
  rw [BitVec.toNat_append, Nat.shiftLeft_eq, Nat.mul_comm, ← Nat.two_pow_add_eq_or_of_lt y.isLt]

theorem extract_toNat {w : Nat} (x : BitVec w) (a n : Nat) : (x.extractLsb' a n).toNat = x.toNat / 2 ^ a % 2 ^ n := by
  rw [BitVec.extractLsb'_toNat, Nat.shiftRight_eq_div_pow]

theorem encR_toNat (op : BitVec 6) (a b c : BitVec 4) :
    (encR op a b c).toNat = op.toNat * 2 ^ 18 + a.toNat * 2 ^ 14 + b.toNat * 2 ^ 10 + c.toNat * 2 ^ 6 := by
  simp only [encR, append_toNat, BitVec.toNat_ofNat]; omega

theorem encI_toNat (op : BitVec 6) (a b : BitVec 4) (c : BitVec 10) :
    (encI op a b c).toNat = op.toNat * 2 ^ 18 + a.toNat * 2 ^ 14 + b.toNat * 2 ^ 10 + c.toNat := by
  simp only [encI, append_toNat]; omega

theorem encL_toNat (op : BitVec 6) (a : BitVec 4) (c : BitVec 14) :
    (encL op a c).toNat = op.toNat * 2 ^ 18 + a.toNat * 2 ^ 14 + c.toNat := by
  simp only [encL, append_toNat]; omega

theorem encJ_toNat (op : BitVec 6) (c : BitVec 15) : (encJ op c).toNat = op.toNat * 2 ^ 18 + c.toNat := by
  simp only [encJ, append_toNat, BitVec.toNat_ofNat]; omega

theorem encS_toNat (op : BitVec 6) (c : BitVec 16) : (encS op c).toNat = op.toNat * 2 ^ 18 + c.toNat := by
  simp only [encS, append_toNat, BitVec.toNat_ofNat]; omega

end Sys2Proof
end

