-- ==== Sys2Proof/Laws/Flow.lean ====
section
/-! SUPPORT. Rings and mailboxes of the two ports: writes to one port, and the bound on its credits. -/
namespace Sys2Proof.Machine

@[simp] theorem setPort_same (f : Flow) (p : Port) (v : PortFlow) : (f.setPort p v).port p = v := by cases p <;> rfl

@[simp] theorem setPort_other (f : Flow) (p : Port) (v : PortFlow) : (f.setPort p v).port p.other = f.port p.other := by cases p <;> rfl

theorem creditsOk_iff (f : Flow) : creditsOk f = true ↔ ∀ p, (f.port p).mailbox + (f.port p).ring.length ≤ p.credits := by
  simp only [creditsOk, Bool.and_eq_true, decide_eq_true_eq]
  exact ⟨fun h p => by cases p; exact h.1; exact h.2, fun h => ⟨h .a, h .b⟩⟩

theorem creditsOk_set {f : Flow} {p : Port} {v : PortFlow} (h : creditsOk f = true) (hv : v.mailbox + v.ring.length ≤ p.credits) :
    creditsOk (f.setPort p v) = true := by
  rw [creditsOk_iff] at h ⊢
  intro q
  cases p <;> cases q <;> first | exact hv | exact h .a | exact h .b

theorem frameRefusal_credits (p : Port) (ws : List Word) (st : Byte) (ctr : Nat) (s : State) (h : creditsOk s.flow = true) :
    creditsOk (frameRefusal p ws st ctr s).flow = true := by
  unfold frameRefusal
  split
  · exact h
  · exact creditsOk_set h ((creditsOk_iff _).1 h p)

/-- A frame-level refusal leaves the queue of commands. -/
@[simp] theorem frameRefusal_pending (p : Port) (ws : List Word) (st : Byte) (ctr : Nat) (s : State) :
    (frameRefusal p ws st ctr s).pending = s.pending := by
  unfold frameRefusal; split <;> rfl

end Sys2Proof.Machine
end

