-- ==== Sys2Proof/Laws/Records.lean ====
section
/-! SUPPORT. What appending a journal record leaves as it was. -/
namespace Sys2Proof.Machine

/-- The parts of the device that no journal record touches. -/
def unitsOf (d : Dev) : (List Req × TimeState × DistState × FuseState × BootState) × (KeyState × SymState × PkState × TamperState)
    × AttestState × PatternState × SuccState × DebugState :=
  ((d.cmds, d.time, d.dist, d.fuse, d.boot), (d.keys, d.sym, d.pk, d.tamper), d.att, d.pat, d.succ, d.dbg)

@[simp] theorem unitsOf_modStream (m : Bool) (f : Stream → Stream) (d : Dev) : unitsOf (modStream m f d) = unitsOf d := by
  unfold modStream; split <;> rfl

@[simp] theorem unitsOf_attnBit (b : Nat) (p : Port) (d : Dev) : unitsOf (attnBit b p d) = unitsOf d := by cases p <;> rfl

@[simp] theorem unitsOf_attnBoth (b : Nat) (d : Dev) : unitsOf (attnBoth b d) = unitsOf d :=
  (unitsOf_attnBit b .b _).trans (unitsOf_attnBit b .a d)

@[simp] theorem unitsOf_alertBit (b : Nat) (d : Dev) : unitsOf (alertBit b d) = unitsOf d := by unfold alertBit; rfl

theorem unitsOf_fw (d : Dev) (x : FirmwareState) : unitsOf { d with fw := x } = unitsOf d := rfl

@[simp] theorem unitsOf_logAt (c : Byte) (p : Nat) (a b : Word) (k : Bool) (d : Dev) : unitsOf (logAt c p a b k d) = unitsOf d := by
  unfold logAt; split
  · exact unitsOf_fw d _
  · rfl

@[simp] theorem unitsOf_checkPressure (d : Dev) : unitsOf (checkPressure d) = unitsOf d := by
  unfold checkPressure; split
  · split <;> rfl
  · rfl

@[simp] theorem unitsOf_closeSegment (m : Bool) (d : Dev) : unitsOf (closeSegment m d) = unitsOf d := by
  unfold closeSegment; split
  · rfl
  · simp only [unitsOf_modStream]; rfl

@[simp] theorem unitsOf_openSegment (m : Bool) (d : Dev) : unitsOf (openSegment m d) = unitsOf d := by
  unfold openSegment; split
  · rfl
  · rfl
  · simp only [unitsOf_checkPressure, unitsOf_modStream]

@[simp] theorem unitsOf_foldSegment (s : Segment) (d : Dev) : unitsOf (foldSegment s d) = unitsOf d := by
  unfold foldSegment mergeStubs; split
  · exact unitsOf_logAt _ _ _ _ _ _
  · split <;> exact unitsOf_logAt _ _ _ _ _ _

/-- A fold over steps that keep the units keeps them. -/
theorem unitsOf_foldl {α : Type} (f : Dev → α → Dev) (h : ∀ d x, unitsOf (f d x) = unitsOf d) (l : List α) (d : Dev) :
    unitsOf (l.foldl f d) = unitsOf d := by
  induction l generalizing d with
  | nil => rfl
  | cons x xs ih => rw [List.foldl_cons, ih, h]

@[simp] theorem spendWords_spendWords (a b : Nat) (d : Dev) : spendWords a (spendWords b d) = spendWords (b + a) d := by
  simp only [spendWords, Nat.add_assoc]

theorem drawWords_spends (n : Nat) : ∀ d, (drawWords n d).2 = spendWords n d := by
  induction n with
  | zero => intro d; rfl
  | succ n ih => intro d; simp [drawWords, ih, draw, spendWords, Nat.add_comm, Nat.add_left_comm]

theorem drawBytes_spends (n : Nat) (d : Dev) : (drawBytes n d).2 = spendWords (ceilDiv n 6) d := drawWords_spends _ d

theorem ecdsaSign_spends (c : Curve) (k h : List Byte) (n : Nat) : ∀ d, ∃ m, (ecdsaSign c k h n d).2 = spendWords m d := by
  induction n with
  | zero => exact fun d => ⟨0, rfl⟩
  | succ n ih =>
    intro d; unfold ecdsaSign; dsimp only; split
    · exact ⟨_, drawBytes_spends _ d⟩
    · obtain ⟨m, hm⟩ := ih (drawBytes (c.size + 8) d).2
      exact ⟨_, by rw [hm, drawBytes_spends, spendWords_spendWords]⟩

theorem dsaSignature_spends (k m : List Byte) (n : Nat) : ∀ d, ∃ w, (dsaSignature k m n d).2 = spendWords w d := by
  induction n with
  | zero => exact fun d => ⟨0, rfl⟩
  | succ n ih =>
    intro d
    rw [dsaSignature]
    cases dsaSign k m (drawBytes 32 d).1 with
    | some s => exact ⟨_, drawBytes_spends 32 d⟩
    | none =>
      obtain ⟨w, hw⟩ := ih (drawBytes 32 d).2
      exact ⟨_, by dsimp only; rw [hw, drawBytes_spends, spendWords_spendWords]⟩

/-- A signature changes nothing but how many words the random source has given. -/
theorem makeSignature_spends (c : Nat) (k m : List Byte) (n : Nat) (d : Dev) : ∃ w, (makeSignature c k m n d).2 = spendWords w d := by
  unfold makeSignature; split
  · exact ecdsaSign_spends p256 k m 16 d
  · exact ecdsaSign_spends p384 k m 16 d
  · exact ⟨0, by simp only [spendWords, Nat.add_zero]⟩
  · exact dsaSignature_spends _ _ _ d
  · exact ⟨_, drawBytes_spends n d⟩

@[simp] theorem unitsOf_makeSignature (c : Nat) (k m : List Byte) (n : Nat) (d : Dev) :
    unitsOf (makeSignature c k m n d).2 = unitsOf d := by
  obtain ⟨w, hw⟩ := makeSignature_spends c k m n d
  rw [hw]; rfl

@[simp] theorem unitsOf_signedHem (k : DeviceKey) (d : Dev) : unitsOf (signedHem d k).2 = unitsOf d := by
  unfold signedHem; dsimp only; split
  · simp only [unitsOf_makeSignature, unitsOf_logAt]
  · simp only [unitsOf_makeSignature, unitsOf_logAt]

@[simp] theorem unitsOf_deferHem (d : Dev) : unitsOf (deferHem d) = unitsOf d := rfl

theorem unitsOf_hemOf {d v b x} (h : hemOf d = some (v, b, x)) : unitsOf x = unitsOf d := by
  unfold hemOf at h
  split at h
  · injection h with h; injection h with _ h; injection h with _ h
    subst h; exact unitsOf_signedHem _ d
  · cases h

theorem unitsOf_placeRecord {m t q c vals tail d x} (h : placeRecord m t q c vals tail d = some x) : unitsOf x.2 = unitsOf d := by
  unfold placeRecord at h
  split at h
  · cases h
  · dsimp only at h; split at h
    · injection h with h; subst h; simp only [unitsOf_modStream]; rfl
    · cases h

theorem unitsOf_writeRecord (n : Nat) : ∀ {m t q c vals tail d x}, writeRecord n m t q c vals tail d = some x → unitsOf x.2 = unitsOf d := by
  induction n with
  | zero => intro m t q c vals tail d x h; cases h
  | succ n ih =>
    have ownOr : ∀ (m : Bool) (t q : Nat) vals tail (d e : Dev), unitsOf e = unitsOf d →
        unitsOf (((writeRecord n m t q 1 vals tail d).map (·.2)).getD e) = unitsOf d := by
      intro m t q vals tail d e he
      cases hw : writeRecord n m t q 1 vals tail d with
      | none => exact he
      | some y => exact ih hw
    have own : ∀ (m : Bool) (t q : Nat) vals tail (d : Dev), unitsOf (((writeRecord n m t q 1 vals tail d).map (·.2)).getD d) = unitsOf d :=
      fun m t q vals tail d => ownOr m t q vals tail d d rfl
    have folds : ∀ (l : List Segment) (d : Dev), unitsOf (l.foldl (fun d s => foldSegment s d) d) = unitsOf d :=
      fun l d => unitsOf_foldl _ (fun d s => unitsOf_foldSegment s d) l d
    have foldOwn : ∀ (l : List Segment) (d : Dev), unitsOf (l.foldl (fun d s =>
        ((writeRecord n (!d.jrn.sealed) 0x42 d.time.quality.code 1
          (stamp d [1, (s.ordinal : Int), (s.ordinal : Int)]) (.bits []) d).map (·.2)).getD d) d) = unitsOf d :=
      fun l d => unitsOf_foldl _ (fun d s => own _ _ _ _ _ d) l d
    intro m t q c vals tail d x h
    unfold writeRecord at h
    split at h
    · injection h with h; subst h; exact unitsOf_placeRecord ‹_›
    · dsimp only at h
      generalize hf : (if m = true then List.filter (canFold (closeSegment m d)) (closeSegment m d).jrn.segments else []) = fs at h
      generalize hd : openSegment m (List.foldl (fun d s => foldSegment s d) (closeSegment m d) fs) = d1 at h
      have h1 : unitsOf d1 = unitsOf d := by rw [← hd, unitsOf_openSegment, folds, unitsOf_closeSegment]
      by_cases hn : (d1.stream m).cur.isNone = true
      · rw [if_pos hn] at h; cases h
      · rw [if_neg hn] at h
        generalize he : List.foldl _ d1 fs = d2 at h
        have h2 : unitsOf d2 = unitsOf d := by rw [← he]; exact (foldOwn fs d1).trans h1
        have last : ∀ d3, unitsOf d3 = unitsOf d → (match placeRecord m t q c vals tail d3 with
            | some x => some x
            | none => writeRecord n m t q c vals tail d3) = some x → unitsOf x.2 = unitsOf d := by
          intro d3 h3 h
          split at h
          · injection h with h; subst h; rw [unitsOf_placeRecord ‹_›, h3]
          · rw [ih h, h3]
        refine last _ ?_ h
        split
        · rename_i he
          exact (ownOr _ _ _ _ _ _ _ (unitsOf_deferHem _)).trans ((unitsOf_hemOf he).trans h2)
        · exact h2

@[simp] theorem unitsOf_flushSummary (d : Dev) : unitsOf (flushSummary d) = unitsOf d := by
  unfold flushSummary; split
  · rfl
  · refine unitsOf_foldl _ ?_ _ _
    intro d s
    cases hw : writeRecord 8 (!d.jrn.sealed) 0x38 d.time.quality.code 1 [(d.now : Int), (d.distance.toNat : Int), (s.rtype : Int), (s.sub : Int),
          (s.count : Int), (s.first : Int), (s.last : Int), (s.total : Int)] (.bits []) d with
    | none => rfl
    | some y => exact unitsOf_writeRecord 8 hw

@[simp] theorem unitsOf_finishOpenRecord (m : Bool) (d : Dev) : unitsOf (finishOpenRecord m d) = unitsOf d := by
  unfold finishOpenRecord; split
  · rfl
  · unfold commitWord; exact unitsOf_modStream _ _ _

@[simp] theorem unitsOf_appendAt (t q c : Nat) (vals : List Int) (tail : Tail) (d : Dev) : unitsOf (appendAt t q c vals tail d).2 = unitsOf d := by
  unfold appendAt; split
  · rfl
  · dsimp only; split
    · exact (unitsOf_writeRecord 8 ‹_›).trans (by rw [unitsOf_finishOpenRecord, unitsOf_flushSummary])
    · split <;> (show unitsOf (finishOpenRecord _ _) = _; rw [unitsOf_finishOpenRecord, unitsOf_flushSummary])

@[simp] theorem unitsOf_fireTrigger (c : Nat) (regs : List Word) (a : AppletRef) (d : Dev) : unitsOf (fireTrigger c regs a d) = unitsOf d := by
  unfold fireTrigger; dsimp only
  repeat' (first | split | rfl)

@[simp] theorem unitsOf_afterCommit (o : Option AppletRef) (m : Bool) (t : Nat) (seq : Word) (vals : List Int) (d : Dev) :
    unitsOf (afterCommit o m t seq vals d) = unitsOf d := by
  have h : unitsOf (journalTriggers o t m seq (intWord (vals.getD 0 0)) (intWord (vals.getD 1 0)) d) = unitsOf d := by
    unfold journalTriggers; exact unitsOf_foldl _ (fun d a => unitsOf_fireTrigger _ _ _ d) _ _
  unfold afterCommit; dsimp only
  split
  · split <;> exact h
  · exact h

@[simp] theorem unitsOf_journalPut (t q : Nat) (vals : List Int) (tail : Tail) (d : Dev) :
    unitsOf (journalPut t q vals tail d).2 = unitsOf d := by
  unfold journalPut
  have h := unitsOf_appendAt t q 1 vals tail d
  split
  · rename_i he; rw [unitsOf_afterCommit]; rw [he] at h; exact h
  · rename_i he; rw [he] at h; exact h

@[simp] theorem unitsOf_secRecordAt (t : Nat) (vals : List Int) (tail : Tail) (d : Dev) : unitsOf (secRecordAt t vals tail d) = unitsOf d := by
  unfold secRecordAt secAppend
  split
  · split <;> rfl
  · exact unitsOf_journalPut _ _ _ _ _

/-- A record that SEC appends leaves commands, time, distance, fuses, keys, engines, tamper, patterns, succession and debug as they were. -/
@[simp] theorem unitsOf_secRecord (t : Nat) (vals : List Nat) (d : Dev) : unitsOf (secRecord t vals d) = unitsOf d :=
  unitsOf_secRecordAt _ _ _ d

theorem secRecord_dist (t : Nat) (vals : List Nat) (d : Dev) : (secRecord t vals d).dist = d.dist :=
  congrArg (fun x => x.1.2.2.1) (unitsOf_secRecord t vals d)

theorem secRecord_time (t : Nat) (vals : List Nat) (d : Dev) : (secRecord t vals d).time = d.time :=
  congrArg (fun x => x.1.2.1) (unitsOf_secRecord t vals d)

end Sys2Proof.Machine
end

