-- ==== Sys2Proof/Laws/Lanes.lean ====
section
/-! SUPPORT. What a quantum's side-channel choices leave as it was: they cost random words and the lane's two registers, nothing else. -/
namespace Sys2Proof.Machine

theorem drawPlan_spends (level nr : Nat) (key : List Byte) (d : Dev) : ∃ m, (drawPlan level nr key d).2 = spendWords m d := by
  unfold drawPlan; dsimp only; split
  · exact ⟨0, rfl⟩
  · split
    · exact ⟨_, drawWords_spends 7 d⟩
    · exact ⟨_, by rw [drawWords_spends, drawBytes_spends, spendWords_spendWords]⟩

theorem runBlocks_spends (level nr n : Nat) : ∀ x d, ∃ m, (runBlocks level nr n x d).2 = spendWords m d := by
  induction n with
  | zero => exact fun _ d => ⟨0, rfl⟩
  | succ n ih =>
    intro x d
    obtain ⟨a, ha⟩ := drawPlan_spends level nr x.1 d
    obtain ⟨b, hb⟩ := ih ((drawPlan level nr x.1 d).1.key, x.2 + blockCycles level nr (drawPlan level nr x.1 d).2.power.throttle
      (drawPlan level nr x.1 d).1) (drawPlan level nr x.1 d).2
    exact ⟨a + b, hb.trans (by rw [ha, spendWords_spendWords])⟩

/-- A quantum draws random words and writes its lane's basting key and cycle count. -/
theorem runQuantum_spends (l level nr n : Nat) (d : Dev) :
    ∃ m k c, runQuantum l level nr n d = modLane l (fun x => { x with bastingKey := k, cycles := c }) (spendWords m d) := by
  unfold runQuantum; dsimp only; split
  · obtain ⟨m, hm⟩ := runBlocks_spends level nr n ((drawBytes 16 d).1, 0) (drawBytes 16 d).2
    exact ⟨_, _, _, by rw [hm, drawBytes_spends, spendWords_spendWords]; rfl⟩
  · obtain ⟨m, hm⟩ := runBlocks_spends level nr n ((d.sym.lanes.getD l {}).bastingKey, 0) d
    exact ⟨_, _, _, by rw [hm]; rfl⟩

@[simp] theorem runQuantum_time (l level nr n : Nat) (d : Dev) : (runQuantum l level nr n d).time = d.time := by
  obtain ⟨m, k, c, h⟩ := runQuantum_spends l level nr n d
  rw [h]; rfl

@[simp] theorem runQuantum_cmds (l level nr n : Nat) (d : Dev) : (runQuantum l level nr n d).cmds = d.cmds := by
  obtain ⟨m, k, c, h⟩ := runQuantum_spends l level nr n d
  rw [h]; rfl

end Sys2Proof.Machine
end

