-- ==== Sys2Proof/Laws/Memory.lean ====
section
/-! SUPPORT. The indexed stores keep their canonical form under every write, and the state after reset has it. -/
namespace Sys2Proof.Machine

theorem putWord_head_gt (k : Nat) (v : Word) (l : List (Nat × Word)) (n : Nat) (h : n < k) (hl : ∀ y ∈ l.head?, n < y.1) :
    ∀ y ∈ (putWord k v l).head?, n < y.1 := by
  cases l with
  | nil => simpa [putWord] using h
  | cons x xs => simp only [putWord]; split; simpa using h; split; simpa using h; simpa using hl

theorem wordsWf_cons (x : Nat × Word) (l : List (Nat × Word)) :
    wordsWf (x :: l) = true ↔ (∀ y ∈ l.head?, x.1 < y.1) ∧ wordsWf l = true := by
  cases l <;> simp [wordsWf]

theorem putWord_wf (k : Nat) (v : Word) (l : List (Nat × Word)) (h : wordsWf l = true) : wordsWf (putWord k v l) = true := by
  induction l with
  | nil => rfl
  | cons x xs ih =>
    have h' := (wordsWf_cons _ _).1 h
    simp only [putWord]
    split
    · rw [wordsWf_cons]; exact ⟨by simpa, h⟩
    · split
      · rename_i h1 h2
        rw [wordsWf_cons]; exact ⟨by simpa [h2] using h'.1, h'.2⟩
      · rw [wordsWf_cons]; exact ⟨putWord_head_gt k v xs x.1 (by omega) h'.1, ih h'.2⟩

theorem countersWf_cons (x : Counter) (l : List Counter) :
    countersWf (x :: l) = true ↔ x.default = false ∧ (∀ y ∈ l.head?, x.index < y.index) ∧ countersWf l = true := by
  cases l <;> simp [countersWf, and_assoc]

/-- Every listed counter lies above what lies below the first. -/
theorem counters_gt (l : List Counter) : ∀ n, (∀ y ∈ l.head?, n < y.index) → countersWf l = true → ∀ y ∈ l, n < y.index := by
  induction l with
  | nil => simp
  | cons x xs ih =>
    intro n h1 h2 y hy
    rw [countersWf_cons] at h2
    rcases List.mem_cons.1 hy with rfl | hy
    · exact h1 _ rfl
    · exact ih n (fun z hz => Nat.lt_trans (h1 x rfl) (h2.2.1 z hz)) h2.2.2 y hy

theorem putCounter_head_gt (x : Counter) (l : List Counter) (n : Nat) (h : n < x.index) (hl : ∀ y ∈ l, n < y.index) :
    ∀ y ∈ (putCounter x l).head?, n < y.index := by
  cases l with
  | nil => simp only [putCounter]; split <;> simp [h]
  | cons c cs =>
    have hc := hl c (by simp)
    have hcs : ∀ y ∈ cs, n < y.index := fun y hy => hl y (by simp [hy])
    simp only [putCounter]
    split
    · split
      · simpa using hc
      · simpa using h
    · split
      · split
        · intro y hy; exact hcs y (List.mem_of_mem_head? hy)
        · simpa using h
      · simpa using hc

theorem putCounter_wf (x : Counter) (cs : List Counter) (h : countersWf cs = true) : countersWf (putCounter x cs) = true := by
  induction cs with
  | nil =>
    simp only [putCounter]
    split
    · rfl
    · simp_all [countersWf]
  | cons c cs ih =>
    have h' := (countersWf_cons _ _).1 h
    have hgt := counters_gt cs c.index h'.2.1 h'.2.2
    simp only [putCounter]
    split
    · split
      · exact h
      · rw [countersWf_cons]; exact ⟨by simp_all, by simpa, h⟩
    · split
      · rename_i heq
        split
        · exact h'.2.2
        · rw [countersWf_cons]; exact ⟨by simp_all, by rw [heq]; exact h'.2.1, h'.2.2⟩
      · rw [countersWf_cons]; exact ⟨h'.1, putCounter_head_gt x cs c.index (by omega) hgt, ih h'.2.2⟩

/-- A counter write keeps every indexed store canonical. -/
theorem wf_putCounter (d : Dev) (x : Counter) (h : Memory.wf d = true) : Memory.wf (d.putCounter x) = true := by
  simp only [Bool.and_eq_true] at h ⊢
  exact ⟨putCounter_wf x _ h.1, h.2⟩

/-- A debug write keeps every indexed store canonical. -/
theorem wf_putWord (d : Dev) (k : Nat) (v : Word) (h : Memory.wf d = true) :
    Memory.wf { d with dbg := { d.dbg with memory := putWord k v d.dbg.memory } } = true := by
  simp only [Bool.and_eq_true] at h ⊢
  exact ⟨h.1, putWord_wf k v _ h.2⟩

theorem wf_reset : Memory.wf State.reset.dev = true := by decide

end Sys2Proof.Machine
end

