-- ==== Sys2Proof/Laws/State.lean ====
section
/-! SUPPORT. What each shared update leaves of the device: one lemma per field per update. -/
namespace Sys2Proof.Machine

-- A command leaves the device's list
@[simp] theorem taken_portA (r : Req) (d : Dev) : (taken r d).portA = d.portA := rfl
@[simp] theorem taken_portB (r : Req) (d : Dev) : (taken r d).portB = d.portB := rfl
@[simp] theorem taken_laneReady (r : Req) (d : Dev) : (taken r d).laneReady = d.laneReady := rfl
@[simp] theorem taken_pkReady (r : Req) (d : Dev) : (taken r d).pkReady = d.pkReady := rfl
@[simp] theorem taken_held (r : Req) (d : Dev) : (taken r d).held = d.held := rfl
@[simp] theorem taken_done (r : Req) (d : Dev) : (taken r d).done = d.done := rfl
@[simp] theorem taken_sched (r : Req) (d : Dev) : (taken r d).sched = d.sched := rfl
@[simp] theorem taken_time (r : Req) (d : Dev) : (taken r d).time = d.time := rfl
@[simp] theorem taken_dist (r : Req) (d : Dev) : (taken r d).dist = d.dist := rfl
@[simp] theorem taken_fuse (r : Req) (d : Dev) : (taken r d).fuse = d.fuse := rfl
@[simp] theorem taken_boot (r : Req) (d : Dev) : (taken r d).boot = d.boot := rfl
@[simp] theorem taken_power (r : Req) (d : Dev) : (taken r d).power = d.power := rfl
@[simp] theorem taken_keys (r : Req) (d : Dev) : (taken r d).keys = d.keys := rfl
@[simp] theorem taken_sym (r : Req) (d : Dev) : (taken r d).sym = d.sym := rfl
@[simp] theorem taken_pk (r : Req) (d : Dev) : (taken r d).pk = d.pk := rfl
@[simp] theorem taken_jrn (r : Req) (d : Dev) : (taken r d).jrn = d.jrn := rfl
@[simp] theorem taken_tamper (r : Req) (d : Dev) : (taken r d).tamper = d.tamper := rfl
@[simp] theorem taken_att (r : Req) (d : Dev) : (taken r d).att = d.att := rfl
@[simp] theorem taken_pat (r : Req) (d : Dev) : (taken r d).pat = d.pat := rfl
@[simp] theorem taken_fw (r : Req) (d : Dev) : (taken r d).fw = d.fw := rfl
@[simp] theorem taken_mgmt (r : Req) (d : Dev) : (taken r d).mgmt = d.mgmt := rfl
@[simp] theorem taken_nvm (r : Req) (d : Dev) : (taken r d).nvm = d.nvm := rfl
@[simp] theorem taken_succ (r : Req) (d : Dev) : (taken r d).succ = d.succ := rfl
@[simp] theorem taken_app (r : Req) (d : Dev) : (taken r d).app = d.app := rfl
@[simp] theorem taken_dbg (r : Req) (d : Dev) : (taken r d).dbg = d.dbg := rfl
@[simp] theorem taken_rnd (r : Req) (d : Dev) : (taken r d).rnd = d.rnd := rfl
@[simp] theorem taken_nextId (r : Req) (d : Dev) : (taken r d).nextId = d.nextId := rfl

-- A port's registers
@[simp] theorem modPort_cmds (p : Port) (f : PortRegs → PortRegs) (d : Dev) : (d.modPort p f).cmds = d.cmds := by cases p <;> rfl
@[simp] theorem modPort_laneReady (p : Port) (f : PortRegs → PortRegs) (d : Dev) : (d.modPort p f).laneReady = d.laneReady := by cases p <;> rfl
@[simp] theorem modPort_pkReady (p : Port) (f : PortRegs → PortRegs) (d : Dev) : (d.modPort p f).pkReady = d.pkReady := by cases p <;> rfl
@[simp] theorem modPort_held (p : Port) (f : PortRegs → PortRegs) (d : Dev) : (d.modPort p f).held = d.held := by cases p <;> rfl
@[simp] theorem modPort_done (p : Port) (f : PortRegs → PortRegs) (d : Dev) : (d.modPort p f).done = d.done := by cases p <;> rfl
@[simp] theorem modPort_sched (p : Port) (f : PortRegs → PortRegs) (d : Dev) : (d.modPort p f).sched = d.sched := by cases p <;> rfl
@[simp] theorem modPort_time (p : Port) (f : PortRegs → PortRegs) (d : Dev) : (d.modPort p f).time = d.time := by cases p <;> rfl
@[simp] theorem modPort_dist (p : Port) (f : PortRegs → PortRegs) (d : Dev) : (d.modPort p f).dist = d.dist := by cases p <;> rfl
@[simp] theorem modPort_fuse (p : Port) (f : PortRegs → PortRegs) (d : Dev) : (d.modPort p f).fuse = d.fuse := by cases p <;> rfl
@[simp] theorem modPort_boot (p : Port) (f : PortRegs → PortRegs) (d : Dev) : (d.modPort p f).boot = d.boot := by cases p <;> rfl
@[simp] theorem modPort_power (p : Port) (f : PortRegs → PortRegs) (d : Dev) : (d.modPort p f).power = d.power := by cases p <;> rfl
@[simp] theorem modPort_keys (p : Port) (f : PortRegs → PortRegs) (d : Dev) : (d.modPort p f).keys = d.keys := by cases p <;> rfl
@[simp] theorem modPort_sym (p : Port) (f : PortRegs → PortRegs) (d : Dev) : (d.modPort p f).sym = d.sym := by cases p <;> rfl
@[simp] theorem modPort_pk (p : Port) (f : PortRegs → PortRegs) (d : Dev) : (d.modPort p f).pk = d.pk := by cases p <;> rfl
@[simp] theorem modPort_jrn (p : Port) (f : PortRegs → PortRegs) (d : Dev) : (d.modPort p f).jrn = d.jrn := by cases p <;> rfl
@[simp] theorem modPort_tamper (p : Port) (f : PortRegs → PortRegs) (d : Dev) : (d.modPort p f).tamper = d.tamper := by cases p <;> rfl
@[simp] theorem modPort_att (p : Port) (f : PortRegs → PortRegs) (d : Dev) : (d.modPort p f).att = d.att := by cases p <;> rfl
@[simp] theorem modPort_pat (p : Port) (f : PortRegs → PortRegs) (d : Dev) : (d.modPort p f).pat = d.pat := by cases p <;> rfl
@[simp] theorem modPort_fw (p : Port) (f : PortRegs → PortRegs) (d : Dev) : (d.modPort p f).fw = d.fw := by cases p <;> rfl
@[simp] theorem modPort_mgmt (p : Port) (f : PortRegs → PortRegs) (d : Dev) : (d.modPort p f).mgmt = d.mgmt := by cases p <;> rfl
@[simp] theorem modPort_nvm (p : Port) (f : PortRegs → PortRegs) (d : Dev) : (d.modPort p f).nvm = d.nvm := by cases p <;> rfl
@[simp] theorem modPort_succ (p : Port) (f : PortRegs → PortRegs) (d : Dev) : (d.modPort p f).succ = d.succ := by cases p <;> rfl
@[simp] theorem modPort_app (p : Port) (f : PortRegs → PortRegs) (d : Dev) : (d.modPort p f).app = d.app := by cases p <;> rfl
@[simp] theorem modPort_dbg (p : Port) (f : PortRegs → PortRegs) (d : Dev) : (d.modPort p f).dbg = d.dbg := by cases p <;> rfl
@[simp] theorem modPort_rnd (p : Port) (f : PortRegs → PortRegs) (d : Dev) : (d.modPort p f).rnd = d.rnd := by cases p <;> rfl
@[simp] theorem modPort_nextId (p : Port) (f : PortRegs → PortRegs) (d : Dev) : (d.modPort p f).nextId = d.nextId := by cases p <;> rfl

@[simp] theorem modPort_port (d : Dev) (p : Port) (f : PortRegs → PortRegs) : (d.modPort p f).port p = f (d.port p) := by cases p <;> rfl
@[simp] theorem modPort_port_other (d : Dev) (p : Port) (f : PortRegs → PortRegs) : (d.modPort p f).port p.other = d.port p.other := by
  cases p <;> rfl
theorem modPort_modPort (d : Dev) (p : Port) (f g : PortRegs → PortRegs) :
    (d.modPort p f).modPort p g = d.modPort p (fun x => g (f x)) := by cases p <;> rfl
@[simp] theorem modPort_now (p : Port) (f : PortRegs → PortRegs) (d : Dev) : (d.modPort p f).now = d.now := by cases p <;> rfl
@[simp] theorem attnBit_port (b : Nat) (p : Port) (d : Dev) :
    ((attnBit b p d).port p).attn = (d.port p).attn ||| (1#12 <<< b) := by cases p <;> rfl

-- Attention and alert causes
@[simp] theorem attnBit_cmds (b : Nat) (p : Port) (d : Dev) : (attnBit b p d).cmds = d.cmds := by cases p <;> rfl
@[simp] theorem attnBit_laneReady (b : Nat) (p : Port) (d : Dev) : (attnBit b p d).laneReady = d.laneReady := by cases p <;> rfl
@[simp] theorem attnBit_pkReady (b : Nat) (p : Port) (d : Dev) : (attnBit b p d).pkReady = d.pkReady := by cases p <;> rfl
@[simp] theorem attnBit_held (b : Nat) (p : Port) (d : Dev) : (attnBit b p d).held = d.held := by cases p <;> rfl
@[simp] theorem attnBit_done (b : Nat) (p : Port) (d : Dev) : (attnBit b p d).done = d.done := by cases p <;> rfl
@[simp] theorem attnBit_sched (b : Nat) (p : Port) (d : Dev) : (attnBit b p d).sched = d.sched := by cases p <;> rfl
@[simp] theorem attnBit_time (b : Nat) (p : Port) (d : Dev) : (attnBit b p d).time = d.time := by cases p <;> rfl
@[simp] theorem attnBit_dist (b : Nat) (p : Port) (d : Dev) : (attnBit b p d).dist = d.dist := by cases p <;> rfl
@[simp] theorem attnBit_fuse (b : Nat) (p : Port) (d : Dev) : (attnBit b p d).fuse = d.fuse := by cases p <;> rfl
@[simp] theorem attnBit_boot (b : Nat) (p : Port) (d : Dev) : (attnBit b p d).boot = d.boot := by cases p <;> rfl
@[simp] theorem attnBit_power (b : Nat) (p : Port) (d : Dev) : (attnBit b p d).power = d.power := by cases p <;> rfl
@[simp] theorem attnBit_keys (b : Nat) (p : Port) (d : Dev) : (attnBit b p d).keys = d.keys := by cases p <;> rfl
@[simp] theorem attnBit_sym (b : Nat) (p : Port) (d : Dev) : (attnBit b p d).sym = d.sym := by cases p <;> rfl
@[simp] theorem attnBit_pk (b : Nat) (p : Port) (d : Dev) : (attnBit b p d).pk = d.pk := by cases p <;> rfl
@[simp] theorem attnBit_jrn (b : Nat) (p : Port) (d : Dev) : (attnBit b p d).jrn = d.jrn := by cases p <;> rfl
@[simp] theorem attnBit_tamper (b : Nat) (p : Port) (d : Dev) : (attnBit b p d).tamper = d.tamper := by cases p <;> rfl
@[simp] theorem attnBit_att (b : Nat) (p : Port) (d : Dev) : (attnBit b p d).att = d.att := by cases p <;> rfl
@[simp] theorem attnBit_pat (b : Nat) (p : Port) (d : Dev) : (attnBit b p d).pat = d.pat := by cases p <;> rfl
@[simp] theorem attnBit_fw (b : Nat) (p : Port) (d : Dev) : (attnBit b p d).fw = d.fw := by cases p <;> rfl
@[simp] theorem attnBit_mgmt (b : Nat) (p : Port) (d : Dev) : (attnBit b p d).mgmt = d.mgmt := by cases p <;> rfl
@[simp] theorem attnBit_nvm (b : Nat) (p : Port) (d : Dev) : (attnBit b p d).nvm = d.nvm := by cases p <;> rfl
@[simp] theorem attnBit_succ (b : Nat) (p : Port) (d : Dev) : (attnBit b p d).succ = d.succ := by cases p <;> rfl
@[simp] theorem attnBit_app (b : Nat) (p : Port) (d : Dev) : (attnBit b p d).app = d.app := by cases p <;> rfl
@[simp] theorem attnBit_dbg (b : Nat) (p : Port) (d : Dev) : (attnBit b p d).dbg = d.dbg := by cases p <;> rfl
@[simp] theorem attnBit_rnd (b : Nat) (p : Port) (d : Dev) : (attnBit b p d).rnd = d.rnd := by cases p <;> rfl
@[simp] theorem attnBit_nextId (b : Nat) (p : Port) (d : Dev) : (attnBit b p d).nextId = d.nextId := by cases p <;> rfl

-- Both ports
@[simp] theorem attnBoth_cmds (b : Nat) (d : Dev) : (attnBoth b d).cmds = d.cmds := rfl
@[simp] theorem attnBoth_laneReady (b : Nat) (d : Dev) : (attnBoth b d).laneReady = d.laneReady := rfl
@[simp] theorem attnBoth_pkReady (b : Nat) (d : Dev) : (attnBoth b d).pkReady = d.pkReady := rfl
@[simp] theorem attnBoth_held (b : Nat) (d : Dev) : (attnBoth b d).held = d.held := rfl
@[simp] theorem attnBoth_done (b : Nat) (d : Dev) : (attnBoth b d).done = d.done := rfl
@[simp] theorem attnBoth_sched (b : Nat) (d : Dev) : (attnBoth b d).sched = d.sched := rfl
@[simp] theorem attnBoth_time (b : Nat) (d : Dev) : (attnBoth b d).time = d.time := rfl
@[simp] theorem attnBoth_dist (b : Nat) (d : Dev) : (attnBoth b d).dist = d.dist := rfl
@[simp] theorem attnBoth_fuse (b : Nat) (d : Dev) : (attnBoth b d).fuse = d.fuse := rfl
@[simp] theorem attnBoth_boot (b : Nat) (d : Dev) : (attnBoth b d).boot = d.boot := rfl
@[simp] theorem attnBoth_power (b : Nat) (d : Dev) : (attnBoth b d).power = d.power := rfl
@[simp] theorem attnBoth_keys (b : Nat) (d : Dev) : (attnBoth b d).keys = d.keys := rfl
@[simp] theorem attnBoth_sym (b : Nat) (d : Dev) : (attnBoth b d).sym = d.sym := rfl
@[simp] theorem attnBoth_pk (b : Nat) (d : Dev) : (attnBoth b d).pk = d.pk := rfl
@[simp] theorem attnBoth_jrn (b : Nat) (d : Dev) : (attnBoth b d).jrn = d.jrn := rfl
@[simp] theorem attnBoth_tamper (b : Nat) (d : Dev) : (attnBoth b d).tamper = d.tamper := rfl
@[simp] theorem attnBoth_att (b : Nat) (d : Dev) : (attnBoth b d).att = d.att := rfl
@[simp] theorem attnBoth_pat (b : Nat) (d : Dev) : (attnBoth b d).pat = d.pat := rfl
@[simp] theorem attnBoth_fw (b : Nat) (d : Dev) : (attnBoth b d).fw = d.fw := rfl
@[simp] theorem attnBoth_mgmt (b : Nat) (d : Dev) : (attnBoth b d).mgmt = d.mgmt := rfl
@[simp] theorem attnBoth_nvm (b : Nat) (d : Dev) : (attnBoth b d).nvm = d.nvm := rfl
@[simp] theorem attnBoth_succ (b : Nat) (d : Dev) : (attnBoth b d).succ = d.succ := rfl
@[simp] theorem attnBoth_app (b : Nat) (d : Dev) : (attnBoth b d).app = d.app := rfl
@[simp] theorem attnBoth_dbg (b : Nat) (d : Dev) : (attnBoth b d).dbg = d.dbg := rfl
@[simp] theorem attnBoth_rnd (b : Nat) (d : Dev) : (attnBoth b d).rnd = d.rnd := rfl
@[simp] theorem attnBoth_nextId (b : Nat) (d : Dev) : (attnBoth b d).nextId = d.nextId := rfl

-- Alert
@[simp] theorem alertBit_portA (b : Nat) (d : Dev) : (alertBit b d).portA = d.portA := rfl
@[simp] theorem alertBit_portB (b : Nat) (d : Dev) : (alertBit b d).portB = d.portB := rfl
@[simp] theorem alertBit_cmds (b : Nat) (d : Dev) : (alertBit b d).cmds = d.cmds := rfl
@[simp] theorem alertBit_laneReady (b : Nat) (d : Dev) : (alertBit b d).laneReady = d.laneReady := rfl
@[simp] theorem alertBit_pkReady (b : Nat) (d : Dev) : (alertBit b d).pkReady = d.pkReady := rfl
@[simp] theorem alertBit_held (b : Nat) (d : Dev) : (alertBit b d).held = d.held := rfl
@[simp] theorem alertBit_done (b : Nat) (d : Dev) : (alertBit b d).done = d.done := rfl
@[simp] theorem alertBit_sched (b : Nat) (d : Dev) : (alertBit b d).sched = d.sched := rfl
@[simp] theorem alertBit_time (b : Nat) (d : Dev) : (alertBit b d).time = d.time := rfl
@[simp] theorem alertBit_dist (b : Nat) (d : Dev) : (alertBit b d).dist = d.dist := rfl
@[simp] theorem alertBit_fuse (b : Nat) (d : Dev) : (alertBit b d).fuse = d.fuse := rfl
@[simp] theorem alertBit_boot (b : Nat) (d : Dev) : (alertBit b d).boot = d.boot := rfl
@[simp] theorem alertBit_power (b : Nat) (d : Dev) : (alertBit b d).power = d.power := rfl
@[simp] theorem alertBit_keys (b : Nat) (d : Dev) : (alertBit b d).keys = d.keys := rfl
@[simp] theorem alertBit_sym (b : Nat) (d : Dev) : (alertBit b d).sym = d.sym := rfl
@[simp] theorem alertBit_pk (b : Nat) (d : Dev) : (alertBit b d).pk = d.pk := rfl
@[simp] theorem alertBit_jrn (b : Nat) (d : Dev) : (alertBit b d).jrn = d.jrn := rfl
@[simp] theorem alertBit_tamper (b : Nat) (d : Dev) : (alertBit b d).tamper = d.tamper := rfl
@[simp] theorem alertBit_att (b : Nat) (d : Dev) : (alertBit b d).att = d.att := rfl
@[simp] theorem alertBit_pat (b : Nat) (d : Dev) : (alertBit b d).pat = d.pat := rfl
@[simp] theorem alertBit_fw (b : Nat) (d : Dev) : (alertBit b d).fw = d.fw := rfl
@[simp] theorem alertBit_nvm (b : Nat) (d : Dev) : (alertBit b d).nvm = d.nvm := rfl
@[simp] theorem alertBit_succ (b : Nat) (d : Dev) : (alertBit b d).succ = d.succ := rfl
@[simp] theorem alertBit_app (b : Nat) (d : Dev) : (alertBit b d).app = d.app := rfl
@[simp] theorem alertBit_dbg (b : Nat) (d : Dev) : (alertBit b d).dbg = d.dbg := rfl
@[simp] theorem alertBit_rnd (b : Nat) (d : Dev) : (alertBit b d).rnd = d.rnd := rfl
@[simp] theorem alertBit_nextId (b : Nat) (d : Dev) : (alertBit b d).nextId = d.nextId := rfl

-- A tenant's statistics
@[simp] theorem modStat_portA (t : Byte) (f : TenantStat → TenantStat) (d : Dev) : (modStat t f d).portA = d.portA := rfl
@[simp] theorem modStat_portB (t : Byte) (f : TenantStat → TenantStat) (d : Dev) : (modStat t f d).portB = d.portB := rfl
@[simp] theorem modStat_cmds (t : Byte) (f : TenantStat → TenantStat) (d : Dev) : (modStat t f d).cmds = d.cmds := rfl
@[simp] theorem modStat_laneReady (t : Byte) (f : TenantStat → TenantStat) (d : Dev) : (modStat t f d).laneReady = d.laneReady := rfl
@[simp] theorem modStat_pkReady (t : Byte) (f : TenantStat → TenantStat) (d : Dev) : (modStat t f d).pkReady = d.pkReady := rfl
@[simp] theorem modStat_held (t : Byte) (f : TenantStat → TenantStat) (d : Dev) : (modStat t f d).held = d.held := rfl
@[simp] theorem modStat_done (t : Byte) (f : TenantStat → TenantStat) (d : Dev) : (modStat t f d).done = d.done := rfl
@[simp] theorem modStat_time (t : Byte) (f : TenantStat → TenantStat) (d : Dev) : (modStat t f d).time = d.time := rfl
@[simp] theorem modStat_dist (t : Byte) (f : TenantStat → TenantStat) (d : Dev) : (modStat t f d).dist = d.dist := rfl
@[simp] theorem modStat_fuse (t : Byte) (f : TenantStat → TenantStat) (d : Dev) : (modStat t f d).fuse = d.fuse := rfl
@[simp] theorem modStat_boot (t : Byte) (f : TenantStat → TenantStat) (d : Dev) : (modStat t f d).boot = d.boot := rfl
@[simp] theorem modStat_power (t : Byte) (f : TenantStat → TenantStat) (d : Dev) : (modStat t f d).power = d.power := rfl
@[simp] theorem modStat_keys (t : Byte) (f : TenantStat → TenantStat) (d : Dev) : (modStat t f d).keys = d.keys := rfl
@[simp] theorem modStat_sym (t : Byte) (f : TenantStat → TenantStat) (d : Dev) : (modStat t f d).sym = d.sym := rfl
@[simp] theorem modStat_pk (t : Byte) (f : TenantStat → TenantStat) (d : Dev) : (modStat t f d).pk = d.pk := rfl
@[simp] theorem modStat_jrn (t : Byte) (f : TenantStat → TenantStat) (d : Dev) : (modStat t f d).jrn = d.jrn := rfl
@[simp] theorem modStat_tamper (t : Byte) (f : TenantStat → TenantStat) (d : Dev) : (modStat t f d).tamper = d.tamper := rfl
@[simp] theorem modStat_att (t : Byte) (f : TenantStat → TenantStat) (d : Dev) : (modStat t f d).att = d.att := rfl
@[simp] theorem modStat_pat (t : Byte) (f : TenantStat → TenantStat) (d : Dev) : (modStat t f d).pat = d.pat := rfl
@[simp] theorem modStat_fw (t : Byte) (f : TenantStat → TenantStat) (d : Dev) : (modStat t f d).fw = d.fw := rfl
@[simp] theorem modStat_mgmt (t : Byte) (f : TenantStat → TenantStat) (d : Dev) : (modStat t f d).mgmt = d.mgmt := rfl
@[simp] theorem modStat_nvm (t : Byte) (f : TenantStat → TenantStat) (d : Dev) : (modStat t f d).nvm = d.nvm := rfl
@[simp] theorem modStat_succ (t : Byte) (f : TenantStat → TenantStat) (d : Dev) : (modStat t f d).succ = d.succ := rfl
@[simp] theorem modStat_app (t : Byte) (f : TenantStat → TenantStat) (d : Dev) : (modStat t f d).app = d.app := rfl
@[simp] theorem modStat_dbg (t : Byte) (f : TenantStat → TenantStat) (d : Dev) : (modStat t f d).dbg = d.dbg := rfl
@[simp] theorem modStat_rnd (t : Byte) (f : TenantStat → TenantStat) (d : Dev) : (modStat t f d).rnd = d.rnd := rfl
@[simp] theorem modStat_nextId (t : Byte) (f : TenantStat → TenantStat) (d : Dev) : (modStat t f d).nextId = d.nextId := rfl

-- A long operation
@[simp] theorem modLong_portA (h : BitVec 24) (f : LongOp → LongOp) (d : Dev) : (modLong h f d).portA = d.portA := rfl
@[simp] theorem modLong_portB (h : BitVec 24) (f : LongOp → LongOp) (d : Dev) : (modLong h f d).portB = d.portB := rfl
@[simp] theorem modLong_cmds (h : BitVec 24) (f : LongOp → LongOp) (d : Dev) : (modLong h f d).cmds = d.cmds := rfl
@[simp] theorem modLong_laneReady (h : BitVec 24) (f : LongOp → LongOp) (d : Dev) : (modLong h f d).laneReady = d.laneReady := rfl
@[simp] theorem modLong_pkReady (h : BitVec 24) (f : LongOp → LongOp) (d : Dev) : (modLong h f d).pkReady = d.pkReady := rfl
@[simp] theorem modLong_held (h : BitVec 24) (f : LongOp → LongOp) (d : Dev) : (modLong h f d).held = d.held := rfl
@[simp] theorem modLong_done (h : BitVec 24) (f : LongOp → LongOp) (d : Dev) : (modLong h f d).done = d.done := rfl
@[simp] theorem modLong_time (h : BitVec 24) (f : LongOp → LongOp) (d : Dev) : (modLong h f d).time = d.time := rfl
@[simp] theorem modLong_dist (h : BitVec 24) (f : LongOp → LongOp) (d : Dev) : (modLong h f d).dist = d.dist := rfl
@[simp] theorem modLong_fuse (h : BitVec 24) (f : LongOp → LongOp) (d : Dev) : (modLong h f d).fuse = d.fuse := rfl
@[simp] theorem modLong_boot (h : BitVec 24) (f : LongOp → LongOp) (d : Dev) : (modLong h f d).boot = d.boot := rfl
@[simp] theorem modLong_power (h : BitVec 24) (f : LongOp → LongOp) (d : Dev) : (modLong h f d).power = d.power := rfl
@[simp] theorem modLong_keys (h : BitVec 24) (f : LongOp → LongOp) (d : Dev) : (modLong h f d).keys = d.keys := rfl
@[simp] theorem modLong_sym (h : BitVec 24) (f : LongOp → LongOp) (d : Dev) : (modLong h f d).sym = d.sym := rfl
@[simp] theorem modLong_pk (h : BitVec 24) (f : LongOp → LongOp) (d : Dev) : (modLong h f d).pk = d.pk := rfl
@[simp] theorem modLong_jrn (h : BitVec 24) (f : LongOp → LongOp) (d : Dev) : (modLong h f d).jrn = d.jrn := rfl
@[simp] theorem modLong_tamper (h : BitVec 24) (f : LongOp → LongOp) (d : Dev) : (modLong h f d).tamper = d.tamper := rfl
@[simp] theorem modLong_att (h : BitVec 24) (f : LongOp → LongOp) (d : Dev) : (modLong h f d).att = d.att := rfl
@[simp] theorem modLong_pat (h : BitVec 24) (f : LongOp → LongOp) (d : Dev) : (modLong h f d).pat = d.pat := rfl
@[simp] theorem modLong_fw (h : BitVec 24) (f : LongOp → LongOp) (d : Dev) : (modLong h f d).fw = d.fw := rfl
@[simp] theorem modLong_mgmt (h : BitVec 24) (f : LongOp → LongOp) (d : Dev) : (modLong h f d).mgmt = d.mgmt := rfl
@[simp] theorem modLong_nvm (h : BitVec 24) (f : LongOp → LongOp) (d : Dev) : (modLong h f d).nvm = d.nvm := rfl
@[simp] theorem modLong_succ (h : BitVec 24) (f : LongOp → LongOp) (d : Dev) : (modLong h f d).succ = d.succ := rfl
@[simp] theorem modLong_app (h : BitVec 24) (f : LongOp → LongOp) (d : Dev) : (modLong h f d).app = d.app := rfl
@[simp] theorem modLong_dbg (h : BitVec 24) (f : LongOp → LongOp) (d : Dev) : (modLong h f d).dbg = d.dbg := rfl
@[simp] theorem modLong_rnd (h : BitVec 24) (f : LongOp → LongOp) (d : Dev) : (modLong h f d).rnd = d.rnd := rfl
@[simp] theorem modLong_nextId (h : BitVec 24) (f : LongOp → LongOp) (d : Dev) : (modLong h f d).nextId = d.nextId := rfl

-- An applet
@[simp] theorem modApplet_portA (a : AppletRef) (f : Applet → Applet) (d : Dev) : (modApplet a f d).portA = d.portA := rfl
@[simp] theorem modApplet_portB (a : AppletRef) (f : Applet → Applet) (d : Dev) : (modApplet a f d).portB = d.portB := rfl
@[simp] theorem modApplet_cmds (a : AppletRef) (f : Applet → Applet) (d : Dev) : (modApplet a f d).cmds = d.cmds := rfl
@[simp] theorem modApplet_laneReady (a : AppletRef) (f : Applet → Applet) (d : Dev) : (modApplet a f d).laneReady = d.laneReady := rfl
@[simp] theorem modApplet_pkReady (a : AppletRef) (f : Applet → Applet) (d : Dev) : (modApplet a f d).pkReady = d.pkReady := rfl
@[simp] theorem modApplet_held (a : AppletRef) (f : Applet → Applet) (d : Dev) : (modApplet a f d).held = d.held := rfl
@[simp] theorem modApplet_done (a : AppletRef) (f : Applet → Applet) (d : Dev) : (modApplet a f d).done = d.done := rfl
@[simp] theorem modApplet_sched (a : AppletRef) (f : Applet → Applet) (d : Dev) : (modApplet a f d).sched = d.sched := rfl
@[simp] theorem modApplet_time (a : AppletRef) (f : Applet → Applet) (d : Dev) : (modApplet a f d).time = d.time := rfl
@[simp] theorem modApplet_dist (a : AppletRef) (f : Applet → Applet) (d : Dev) : (modApplet a f d).dist = d.dist := rfl
@[simp] theorem modApplet_fuse (a : AppletRef) (f : Applet → Applet) (d : Dev) : (modApplet a f d).fuse = d.fuse := rfl
@[simp] theorem modApplet_boot (a : AppletRef) (f : Applet → Applet) (d : Dev) : (modApplet a f d).boot = d.boot := rfl
@[simp] theorem modApplet_power (a : AppletRef) (f : Applet → Applet) (d : Dev) : (modApplet a f d).power = d.power := rfl
@[simp] theorem modApplet_keys (a : AppletRef) (f : Applet → Applet) (d : Dev) : (modApplet a f d).keys = d.keys := rfl
@[simp] theorem modApplet_sym (a : AppletRef) (f : Applet → Applet) (d : Dev) : (modApplet a f d).sym = d.sym := rfl
@[simp] theorem modApplet_pk (a : AppletRef) (f : Applet → Applet) (d : Dev) : (modApplet a f d).pk = d.pk := rfl
@[simp] theorem modApplet_jrn (a : AppletRef) (f : Applet → Applet) (d : Dev) : (modApplet a f d).jrn = d.jrn := rfl
@[simp] theorem modApplet_tamper (a : AppletRef) (f : Applet → Applet) (d : Dev) : (modApplet a f d).tamper = d.tamper := rfl
@[simp] theorem modApplet_att (a : AppletRef) (f : Applet → Applet) (d : Dev) : (modApplet a f d).att = d.att := rfl
@[simp] theorem modApplet_pat (a : AppletRef) (f : Applet → Applet) (d : Dev) : (modApplet a f d).pat = d.pat := rfl
@[simp] theorem modApplet_fw (a : AppletRef) (f : Applet → Applet) (d : Dev) : (modApplet a f d).fw = d.fw := rfl
@[simp] theorem modApplet_mgmt (a : AppletRef) (f : Applet → Applet) (d : Dev) : (modApplet a f d).mgmt = d.mgmt := rfl
@[simp] theorem modApplet_nvm (a : AppletRef) (f : Applet → Applet) (d : Dev) : (modApplet a f d).nvm = d.nvm := rfl
@[simp] theorem modApplet_succ (a : AppletRef) (f : Applet → Applet) (d : Dev) : (modApplet a f d).succ = d.succ := rfl
@[simp] theorem modApplet_dbg (a : AppletRef) (f : Applet → Applet) (d : Dev) : (modApplet a f d).dbg = d.dbg := rfl
@[simp] theorem modApplet_rnd (a : AppletRef) (f : Applet → Applet) (d : Dev) : (modApplet a f d).rnd = d.rnd := rfl
@[simp] theorem modApplet_nextId (a : AppletRef) (f : Applet → Applet) (d : Dev) : (modApplet a f d).nextId = d.nextId := rfl

end Sys2Proof.Machine
end

