-- ==== Sys2Proof/WellFormed.lean ====
section
/-! DEFINITION. Which commands are well formed: a host row carries its opcode and a payload of the length its header states, a frame
write carries words, a fuse read names a fuse word and its six reads. -/
namespace Sys2Proof
open Sys2Proof.Machine

/-- The opcode and the accepted command of a host row. -/
def hostRow : Instr → Option (Nat × Req)
  | .linkInfo r => some (0x0101, r)
  | .linkPing r => some (0x0102, r)
  | .sessionOpen r => some (0x0110, r)
  | .sessionClose r => some (0x0111, r)
  | .sessionStatus r => some (0x0112, r)
  | .sessionRevoke r => some (0x0113, r)
  | .tenantWrite r => some (0x0201, r)
  | .tenantRemove r => some (0x0202, r)
  | .tenantRead r => some (0x0203, r)
  | .tenantList r => some (0x0204, r)
  | .tenantStats r => some (0x0205, r)
  | .engineOccupancy r => some (0x0206, r)
  | .lifecycleRead r => some (0x02F0, r)
  | .lifecycleAdvance r _ => some (0x02F1, r)
  | .optionProgram r _ => some (0x02F2, r)
  | .keyDerive r => some (0x0301, r)
  | .flaconLoad r => some (0x0302, r)
  | .flaconCreate r => some (0x0303, r)
  | .flaconImport r => some (0x0304, r)
  | .flaconRewrap r => some (0x0305, r)
  | .flaconRewrapChunk r => some (0x0306, r)
  | .flaconEpochAdvance r => some (0x0307, r)
  | .keyPersist r => some (0x0310, r)
  | .keyErase r => some (0x0311, r)
  | .keyInfo r => some (0x0312, r)
  | .keyList r => some (0x0313, r)
  | .keyPublic r => some (0x0314, r)
  | .cipherEncrypt r => some (0x0401, r)
  | .cipherDecrypt r => some (0x0402, r)
  | .streamOpen r => some (0x0410, r)
  | .streamChunk r => some (0x0411, r)
  | .hash r => some (0x0501, r)
  | .hashStreamOpen r => some (0x0510, r)
  | .hashStreamChunk r => some (0x0511, r)
  | .pkSign r => some (0x0601, r)
  | .pkVerify r => some (0x0602, r)
  | .pkAgree r => some (0x0603, r)
  | .pkKemPublic r => some (0x0604, r)
  | .rsaKeygen r => some (0x0610, r)
  | .rsaKeygenResult r => some (0x0611, r)
  | .pkInfo r => some (0x0620, r)
  | .journalAppend r => some (0x0701, r)
  | .journalStatus r => some (0x0702, r)
  | .journalHead r => some (0x0703, r)
  | .journalExport r => some (0x0710, r)
  | .exportChunk r => some (0x0711, r)
  | .segmentRead r => some (0x0712, r)
  | .receiptSubmit r => some (0x0720, r)
  | .traceRead r => some (0x0730, r)
  | .timeRead r => some (0x0801, r)
  | .timeAdjust r => some (0x0802, r)
  | .timeAuthChallenge r => some (0x0803, r)
  | .timeAuthAdjust r => some (0x0804, r)
  | .timeConfirm r => some (0x0805, r)
  | .timeAlarmSet r => some (0x0806, r)
  | .distanceRead r => some (0x0810, r)
  | .gnssFeed r => some (0x0811, r)
  | .counterAllocate r => some (0x0901, r)
  | .counterRelease r => some (0x0902, r)
  | .counterRead r => some (0x0903, r)
  | .counterIncrement r => some (0x0904, r)
  | .tamperStatus r => some (0x0A01, r)
  | .tamperSources r => some (0x0A02, r)
  | .tamperInject r => some (0x0A03, r)
  | .attestCert r => some (0x0B01, r)
  | .attestStatement r _ => some (0x0B02, r)
  | .challengeRespond r => some (0x0B03, r)
  | .attestKeygen r => some (0x0B10, r)
  | .attestCertWrite r => some (0x0B11, r)
  | .verifierSecretExport r => some (0x0B12, r)
  | .patternRead r => some (0x0C01, r)
  | .patternWrite r => some (0x0C02, r)
  | .patternStore r => some (0x0C03, r)
  | .patternRevert r => some (0x0C04, r)
  | .patternDiscard r => some (0x0C05, r)
  | .patternInfo r => some (0x0C06, r)
  | .bootPush r => some (0x0D00, r)
  | .fwStageOpen r => some (0x0D01, r)
  | .fwStageChunk r _ => some (0x0D02, r)
  | .fwLoad r => some (0x0D03, r)
  | .fwHandover r => some (0x0D04, r)
  | .fwVersionCommit r _ => some (0x0D05, r)
  | .fwStatus r => some (0x0D06, r)
  | .fwRestart r => some (0x0D07, r)
  | .logRead r => some (0x0D10, r)
  | .longStatus r => some (0x0E01, r)
  | .longSuspend r => some (0x0E02, r)
  | .longResume r => some (0x0E03, r)
  | .longCancel r => some (0x0E04, r)
  | .longRelease r => some (0x0E05, r)
  | .longList r => some (0x0E06, r)
  | .appletLoad r => some (0x0F01, r)
  | .appletUnload r => some (0x0F02, r)
  | .appletCall r => some (0x0F03, r)
  | .appletResult r => some (0x0F04, r)
  | .appletTrigger r => some (0x0F05, r)
  | .appletStatus r => some (0x0F06, r)
  | .appletList r => some (0x0F07, r)
  | .mgmtInfo r => some (0x1001, r)
  | .mgmtSensors r => some (0x1002, r)
  | .mgmtHealthRead r => some (0x1003, r)
  | .mgmtLogRead r => some (0x1004, r)
  | .mgmtPower r => some (0x1010, r)
  | .mgmtAddress r => some (0x1011, r)
  | .mgmtFence r => some (0x1020, r)
  | .mgmtUnfence r _ => some (0x1021, r)
  | .mgmtBundlePush r => some (0x1030, r)
  | .mgmtRestart r => some (0x1040, r)
  | .succChallenge r => some (0x1101, r)
  | .succOffer r => some (0x1102, r)
  | .succBegin r => some (0x1103, r)
  | .succPackageRead r => some (0x1104, r)
  | .succReceive r => some (0x1105, r)
  | .succCommit r _ => some (0x1106, r)
  | .succDepartureRead r => some (0x1107, r)
  | .succActivate r => some (0x1108, r)
  | .succRelease r => some (0x1109, r)
  | .succAbort r => some (0x110A, r)
  | .succClose r => some (0x110B, r)
  | .successionTransit r => some (0x1110, r)
  | .successionInherit r => some (0x1111, r)
  | .succStatus r => some (0x1112, r)
  | _ => none

/-- The header length is a 24-bit field and says how many payload words there are (R183). -/
def Req.formed (r : Req) : Bool := decide (r.len < 2 ^ 24) && r.words.length == ceilDiv r.len 6

/-- A fuse read names one of the 96 words and holds two copies at three margins (R131). -/
def FuseRead.formed (x : FuseRead) : Bool := decide (x.word < 96) && x.reads.length == 6

/-- The well-formed commands. -/
def WellFormed (i : Instr) : Bool :=
  match hostRow i with
  | some (op, r) => r.opcode.toNat == op && r.formed
  | none =>
    match i with
    | .requestFrame _ offset words => !words.isEmpty && decide (offset < 2 ^ 16)
    | .bootRomFlow b => b.reads.all FuseRead.formed
    | .fuseResense _ reads => reads.all FuseRead.formed
    | _ => true

end Sys2Proof
end

