-- ==== Sys2Proof/Tests/Slice0.lean ====
section
/-! SUPPORT. Small tests of the model: which commands are refused as ill formed, applet words written out from R656 and R657, a few
effects, and for every statement of Certificates/Slice0/Obligations.lean a concrete device and command that meet its conditions. -/
open Sys2Proof Sys2Proof.Machine
namespace Sys2Proof.Tests

set_option Elab.async false

-- Fixtures

/-- A tenant record of 20 words. -/
def trec (t : Nat) : List Word :=
  [mkWord [(47, 40, t), (39, 32, 1), (31, 24, if t == 1 then 0 else 2), (20, 16, 31)], mkWord [(47, 40, 16), (39, 28, 32), (27, 16, 32), (15, 8, 64), (7, 0, 16)],
    mkWord [(47, 32, 8000), (31, 16, 2000), (15, 8, 64)], mkWord [(47, 32, 100), (23, 0, 1)]] ++ List.replicate 16 0

/-- A pattern image with one verifier class, one applet and three tenants. -/
def img : List Word :=
  List.replicate 15 0 ++ [mkWord [(47, 40, 1), (31, 24, 1)]] ++ List.replicate 80 0 ++ [mkWord [(47, 32, 1)]] ++ List.replicate 63 0
    ++ [mkWord [(47, 40, 5), (39, 24, 9), (0, 0, 1)]] ++ List.replicate 8 0 ++ [mkWord [(47, 32, 4), (27, 24, 15)]] ++ List.replicate 310 0
    ++ trec 0 ++ trec 1 ++ trec 5

/-- A cell set of the base key. -/
def cells : KeyCells := { share0 := List.replicate 32 1, mask0 := List.replicate 32 2, share1 := List.replicate 32 3, mask1 := List.replicate 32 4 }

/-- A running device in the life-cycle state whose fuse word is given, holding the command; without one, the second. -/
def devL (lc : Word) (r : Req) : Dev :=
  { cmds := [r], boot := { running := true, progress := 0x0B }, power := { state := .active }, fuse := { shadow := lc :: List.replicate 95 0 }
    keys := { cellsA := some cells }, pat := { image := img } }
def idle : Dev := { devL 0x3FFFF {} with cmds := [] }

/-- A command of a tenant in a session of port A. -/
def rq (op t : Nat) (ws : List Word) : Req :=
  { tenant := BitVec.ofNat 8 t, opcode := BitVec.ofNat 16 op, words := ws, len := 6 * ws.length, flags := 12, admin := true, deadline := 1000000, session := 1 }

/-- The command of a host row and a device that holds it meet the row's conditions; the second for a management packet. -/
abbrev Fits (e : HostEffect) (t : Nat) (ws : List Word) (f : Dev → Dev := id) (lc : Word := 0x3FFFF) : Prop :=
  e.Fits (rq e.op t ws) (f (devL lc (rq e.op t ws)))
/-- The same of an open frame, which no session carries. -/
abbrev FitsO (e : HostEffect) (ws : List Word) (f : Dev → Dev := id) : Prop :=
  e.Fits { rq e.op 0xFF ws with flags := 0, session := 0 } (f (devL 0x3FFFF { rq e.op 0xFF ws with flags := 0, session := 0 }))
abbrev FitsM (e : HostEffect) (ws : List Word) (f : Dev → Dev := id) : Prop :=
  e.Fits { rq e.op 0 ws with origin := .mgmt } (f (devL 0x3FFFF { rq e.op 0 ws with origin := .mgmt }))

-- Payload words and device variants of the witnesses
def z (n : Nat) : List Word := List.replicate n 0
def slot (kt u : Nat) : Slot := { tenant := 5, index := 1, gen := 1, ktype := kt, usages := BitVec.ofNat 8 u }
def wslot (kt u : Nat) (d : Dev) : Dev := { d with keys := { d.keys with slots := [slot kt u, {slot 3 255 with tenant := 1}], staged := [{ id := 0, tenant := 5, material := List.replicate 64 1}] } }
def fl (kt u m : Nat) : List Word := [mkWord [(47, 40, 1), (39, 32, 5), (31, 24, kt), (23, 16, u)], 0, 0, 0, 0, mkWord [(15, 0, m)]]
def flc (kt u m : Nat) : List Word := fl kt u m ++ z (2 + ceilDiv m 6 + 3)
def h1 : Word := handleOf 5 1 1
def long (k : Nat) (t : Nat) (dt : LongData) (st : LongState := .running) (d : Dev) : Dev :=
  { d with sched := { d.sched with longs := [{ handle := 1, kind := k, tenant := BitVec.ofNat 8 t, state := st, data := dt, result := [0] }] } }
def m (hi lo v : Nat) : Word := mkWord [(hi, lo, v)]
def jrn (d : Dev) : Dev := openSegment true { d with jrn := { d.jrn with created := true } }
def seg (d : Dev) : Dev := { wslot 1 3 d with jrn := { d.jrn with created := true, segments := [{}], main := { nextOrdinal := 1 } } }
def lex (d : Dev) : Dev := long 1 1 (.exportOf {}) .running (seg d)
def cnt (d : Dev) : Dev := { d with time := { d.time with counters := [{ index := 3, holder := 5, value := 7 }], bucket := 5, quality := .confirmed } }
def att (d : Dev) : Dev := { d with att := { d.att with key := some {}, cert0 := some [1, 2] } }
def good : List Word := 
  z 8 ++ [mkWord [(47, 40, 0x0A), (39, 30, 1), (29, 28, 1), (27, 16, 1)], mkWord [(47, 39, 1), (38, 30, 1), (29, 21, 1), (20, 12, 1)],
    mkWord [(47, 33, 4000), (32, 25, 8), (24, 18, 5), (17, 8, 10), (7, 3, 1)], mkWord [(47, 32, 100), (31, 27, 1)], 0,
    mkWord [(47, 38, 1), (37, 36, 1), (34, 27, 30), (26, 20, 1)], mkWord [(47, 35, 1), (34, 27, 196), (26, 19, 140)], 0] ++ z 16
  ++ (List.range 29).map (fun s => mkWord [(45, 38, 1), (37, 35, if s == 17 || s == 18 then 3 else if s == 25 then 2 else 0)]) ++ z 419 ++ trec 0 ++ trec 1
def stg (d : Dev) : Dev := { d with pat := { d.pat with staging := some { image := good, base := 3, edits := 4 } } }
def prev (d : Dev) : Dev := { d with pat := { d.pat with gen := 2, highest := 2, bankB := { k0 := some true, gen := 1, image := [m 39 16 1], digest := patternDigest [m 39 16 1] } } }
def fwst (d : Dev) : Dev := { long 3 0 .stage .running d with fw := { d.fw with stage := some { target := 1, handle := 1 } } }
def raised (d : Dev) : Dev := { d with fw := { d.fw with header := [0, 0, m 47 40 2, 0] } }
def fwhas (ws : List Word) (d : Dev) : Dev := { fwst d with fw := { (fwst d).fw with stage := some { target := 1, handle := 1, words := ws } } }
def whole : List Word := [0, m 31 0 90] ++ z 88
def dirw : List Word := z 4 ++ [mkWord [(47, 40, 2), (31, 0, 90)], m 31 0 5] ++ z 80
def fwl (d : Dev) : Dev := { d with fw := { d.fw with stage := some { target := 1, complete := true, words := dirw }, loaded := some (2, [], true) } }
def ap : Applet := { ref := { tenant := 5, id := 9 } }
def app (d : Dev) : Dev := { d with app := { applets := [ap] } }
/-- An image of one HALT under the Ed25519 base point as key, signed with R the identity and S the hash modulo L (RFC 8032, worked out by
hand), and a device whose pattern admits its key. -/
def xkey : List Word := 0x666666666658 :: List.replicate 4 0x666666666666 ++ [0x6666] ++ z 10
def ximg : List Word :=
  [mkWord [(47, 40, 1), (39, 32, 5), (31, 16, 9)], mkWord [(47, 32, 1), (15, 0, 683)], 0, m 31 24 3, 0, 0, 0, 0, m 47 24 0x040000] ++ xkey
    ++ [1, 0, 0, 0, 0, 0x7f1ef8050000, 0x8391314bd84, 0x39009e61ddf7, 0x414d94f8a2d8, 0xd9e985c14450, 0x2124c00] ++ z 5
def listed (d : Dev) : Dev := { d with pat := { d.pat with image := d.pat.image.take 161 ++ bytesWords (sha384 (wordsBytes xkey)) ++ d.pat.image.drop 169 } }
def succ (n : Nat) (f : SuccState → SuccState) (d : Dev) : Dev := { att d with succ := f { d.succ with state := n, pending := some {} }, pat := { d.pat with image := d.pat.image.take 520 } }
def out (d : Dev) : Dev := succ 1 (fun x => { x with cipher := z 5 }) { d with pat := { d.pat with image := d.pat.image } }
def out5 (d : Dev) : Dev := { out d with pat := { d.pat with image := d.pat.image } }
def inc (d : Dev) : Dev := succ 2 id d
def inc0 (d : Dev) : Dev := succ 2 (fun x => { x with pending := none }) d
def fre (d : Dev) : Dev := succ 0 (fun x => { x with transitLive := true }) d
def ses (d : Dev) : Dev := { d with portA := { sessions := [{ id := 1, tenant := 5 }, { id := 2, tenant := 5 }] } }

-- Witnesses: host rows

theorem witness_HostLinkCommandsComplete :
    Fits effSessionRevoke 0 [m 47 40 5] (fun d => { d with portA := { sessions := [{ id := 1, tenant := 5 }, { id := 2, tenant := 5 }] } }) ∧
    FitsO effLinkInfo [] ∧
    Fits effLinkPing 5 [] ∧
    Fits effSessionStatus 5 [] ses ∧
    FitsO effSessionOpen (mkWord [(47, 40, 5), (39, 32, 1)] :: z 29) ∧
    FitsO effSessionOpen (mkWord [(47, 40, 9), (39, 32, 2), (15, 0, 3600)] :: z 29) ∧
    Fits effSessionClose 5 [] ses := by
  and_intros <;> decide +kernel

theorem witness_TenantCommandsComplete :
    Fits effTenantWrite 0 (trec 7) ∧
    Fits effTenantWrite 0 (trec 5) ∧
    Fits effTenantRemove 0 [m 47 40 5] ∧
    Fits effTenantRead 0 [m 47 40 5] ∧
    Fits effTenantList 0 [] ∧
    Fits effTenantStats 5 [] ∧
    Fits effEngineOccupancy 0 [] := by
  decide +kernel

theorem witness_LifecycleCommandsComplete :
    Fits (effLifecycleAdvance .programmed) 0 [m 47 40 4] ∧
    Fits (effLifecycleAdvance (.stuck true 3)) 0 [m 47 40 4] ∧
    Fits (effOptionProgram none) 0 [2, 0] ∧
    Fits (effOptionProgram (some (1, .stuck false 2))) 0 [2, 0] ∧
    Fits (effOptionProgram (some (2, .stopped true 2))) 0 [6, 0] ∧
    Fits effLifecycleRead 5 [] := by
  decide +kernel

theorem witness_KeyMakingCompletes :
    Fits effKeyDerive 5 ([m 39 28 1, mkDesc 1 3 false] ++ z 8) ∧
    Fits effFlaconLoad 5 (m 39 28 1 :: flc 1 3 16) (wslot 1 3) ∧
    Fits effFlaconCreate 5 (0 :: fl 1 3 0) ∧
    Fits effFlaconCreate 5 (mkWord [(39, 28, 7), (0, 0, 1)] :: fl 1 3 0) ∧
    Fits effFlaconCreateEc 5 (0 :: fl 0x10 0x40 0) ∧
    Fits effFlaconImport 5 ([m 47 40 1, 0] ++ fl 1 3 16 ++ z 3) := by
  decide +kernel

theorem witness_SlotCommandsComplete :
    Fits effKeyPersist 5 [mkWord [(47, 40, 1), (39, 28, 0xF01)], mkDesc 1 3 false, 0] ∧
    Fits effKeyPersistEc 5 [mkWord [(47, 40, 1), (39, 28, 0xF01)], mkDesc 0x10 0x40 false, 0] ∧
    Fits effKeyPersistDerived 5 ([mkWord [(47, 40, 3), (39, 28, 0xF01)], mkDesc 1 3 false, 0] ++ z 8) ∧
    Fits effKeyErase 5 [h1] (wslot 1 3) ∧
    Fits effKeyInfo 5 [h1] (wslot 1 3) ∧
    Fits effKeyList 5 [0] (wslot 1 3) ∧
    Fits effKeyPublic 5 [h1] (wslot 0x10 0x40) ∧
    Fits effFlaconEpochAdvance 5 [] ∧
    Fits effFlaconRewrap 5 [0, 0] ∧
    Fits effFlaconRewrapChunk 5 ([mkWord [(47, 40, 1), (23, 0, 1)]] ++ flc 1 3 16) (long 2 5 (.rewrap 3 5) ∘ wslot 1 3) := by
  and_intros <;> decide +kernel

theorem witness_CipherCommandsStart :
    Fits (effCipher 0x0401 .cipherEncrypt) 5 ([h1, mkWord [(47, 40, 1), (39, 32, 1), (23, 16, 16)], m 39 0 16] ++ z 6 ++ z 3) (wslot 1 3) ∧
    Fits (effCipher 0x0402 .cipherDecrypt) 5 ([h1, mkWord [(47, 40, 1), (39, 32, 1), (23, 16, 16)], m 39 0 16] ++ z 6 ++ z 3) (wslot 1 3) ∧
    Fits effStreamOpen 5 ([h1, mkWord [(47, 40, 1), (39, 32, 1), (23, 16, 16)], m 39 0 16] ++ z 6) (wslot 1 3) ∧
    Fits effStreamChunk 5 ([mkWord [(24, 24, 1), (23, 0, 1)], m 39 0 16] ++ z 3 ++ z 3) (long 4 5 (.stream { mode := 1, iv := List.replicate 16 0, total := 16 })) := by
  decide +kernel

theorem witness_HashCommandsAnswer :
    Fits effHash 5 [mkWord [(47, 40, 1), (39, 0, 5)], 7] ∧
    Fits effHashStreamOpen 5 [m 47 40 1] ∧
    Fits effHashStreamChunk 5 ([mkWord [(24, 24, 1), (23, 0, 1)], m 39 0 5] ++ z 1) (long 4 5 (.hashStream 1 [])) ∧
    Fits effHashStreamChunk 5 ([mkWord [(24, 24, 0), (23, 0, 1)], m 39 0 5] ++ z 1) (long 4 5 (.hashStream 1 [])) := by
  decide +kernel

theorem witness_PublicKeyCommandsStart :
    Fits effPkVerify 5 ([mkWord [(47, 40, 1), (39, 24, 32)], mkWord [(47, 32, 64), (31, 16, 64)]] ++ z 28) ∧
    Fits effPkSign 5 ([h1, mkWord [(47, 40, 1), (39, 24, 32)]] ++ z 6) (wslot 0x10 0x40) ∧
    Fits effPkAgree 5 ([h1, mkWord [(47, 40, 3), (39, 32, 1), (31, 16, 32)]] ++ z 10 ++ z 6) (wslot 0x13 0x80) ∧
    Fits effPkAgree 5 ([0, mkWord [(47, 40, 5), (39, 32, 1), (31, 16, 1184)]] ++ z 10 ++ z 198) (wslot 0x13 0x80) ∧
    Fits effPkKemPublic 5 (m 15 0 22 :: flc 0x21 0x80 64) (wslot 0x13 0x80) := by
  decide +kernel

theorem witness_RsaAndInfoComplete :
    Fits effRsaKeygen 5 (0 :: fl 0x20 0x40 0) ∧
    Fits effRsaKeygenResult 5 [1] (long 5 5 (.rsa { result := some ([], []) }) .done) ∧
    Fits effPkInfo 5 [] := by
  decide +kernel

theorem witness_JournalWritesComplete :
    Fits effJournalAppend 1 [m 47 40 0x20, 1, 1, 1] jrn ∧
    Fits effJournalAppend 5 ([mkWord [(47, 40, 0x70)], 5, 0, 0]) jrn ∧
    Fits effJournalExport 1 [m 47 40 1, 0, 0, handleOf 1 1 1] seg ∧
    Fits effExportChunk 1 [mkWord [(47, 40, 1), (23, 0, 1)]] lex ∧
    Fits effReceiptSubmit 0 (mkWord [(47, 40, 1), (39, 32, 1)] :: z 14) seg := by
  decide +kernel

theorem witness_JournalReadsAnswer :
    Fits effJournalStatus 1 [] seg ∧
    Fits effJournalHead 1 [] seg ∧
    Fits effSegmentRead 1 [m 47 40 1, 0] seg ∧
    Fits effTraceRead 1 [0] seg := by
  decide +kernel

theorem witness_TimeCommandsComplete :
    Fits effTimeRead 1 [] ∧
    Fits effTimeAdjust 1 [10, 0] ∧
    Fits effTimeAdjust 1 [0, 0] (fun d => { d with nvm := { writes := [{ effect := .offset 1 0 false 1 }] } }) ∧
    Fits effTimeAuthChallenge 1 [] ∧
    Fits effTimeAuthAdjust 1 (z 15) ∧
    Fits effTimeConfirm 1 [3, 0] cnt ∧
    Fits effTimeConfirm 1 [3, 1] ∧
    Fits effTimeConfirm 1 [0, 1] (fun d => { d with time := { d.time with tick := 5 } }) ∧
    Fits effTimeConfirm 1 [5, 1] (fun d => { d with time := { d.time with tick := 5, quality := .uncertain, onRc := true } }) ∧
    Fits effTimeConfirm 1 [0, 0] (fun d => { d with time := { d.time with quality := .uncertain } }) ∧
    Fits effTimeAlarmSet 5 [0] ∧
    Fits effTimeAlarmSet 5 [9] (fun d => { d with time := { d.time with tick := 9 } }) ∧
    Fits effTimeAlarmSet 5 [9] (fun d => { d with time := { d.time with tick := 8 } }) := by
  and_intros <;> decide +kernel

theorem witness_DistanceAndCountersComplete :
    Fits effDistanceRead 5 [] ∧
    Fits effGnssFeed 5 [m 23 16 1] ∧
    Fits effGnssFeed 5 [m 23 16 3] (fun d => { d with dist := { d.dist with gnss := some (5, 1) } }) ∧
    Fits effGnssFeed 5 [m 23 16 3] ∧
    Fits effCounterAllocate 0 [mkWord [(47, 40, 5), (39, 28, 2), (27, 16, 1)]] cnt ∧
    Fits effCounterRelease 0 [mkWord [(39, 28, 2), (27, 16, 1)]] cnt ∧
    Fits effCounterRead 5 [3] cnt ∧
    Fits effCounterIncrement 5 [3, 2, 0] cnt := by
  decide +kernel

theorem witness_TamperCommandsComplete :
    Fits effTamperStatus 5 [] ∧
    Fits effTamperSources 0 [] ∧
    Fits effTamperInject 0 [3, 5] id 0x3F := by
  decide +kernel

theorem witness_AttestCommandsComplete :
    Fits effAttestCert 0 [0] att ∧
    Fits effAttestStatement 5 (z 9) att ∧
    Fits effAttestStatement 5 (1 :: z 8) (fun d => { att d with att := { (att d).att with cert1 := some [] } }) ∧
    Fits effAttestStatementFails 5 (z 9) att ∧
    Fits effChallengeRespond 5 (m 47 32 1 :: z 3) ∧
    Fits effAttestKeygen 0 [] id 0x3F ∧
    Fits effAttestCertWrite 0 [m 31 16 6, 0] id 0x3F ∧
    Fits effVerifierSecretExport 0 [1] := by
  decide +kernel

theorem witness_PatternCommandsComplete :
    Fits effPatternRead 0 [mkWord [(47, 40, 1), (15, 0, 2)]] ∧
    Fits effPatternWrite 0 [mkWord [(31, 16, 16), (15, 0, 1)], 3] ∧
    Fits effPatternDiscard 0 [] ∧
    Fits effPatternInfo 5 [] ∧
    Fits effPatternStore 0 [mkWord [(47, 24, 3), (15, 0, 4)]] stg ∧
    Fits effPatternRevert 0 [] prev := by
  decide +kernel

theorem witness_FirmwareCommandsComplete :
    Fits effFwStageOpen 0 [m 47 40 1] ∧
    Fits effFwStageOpen 0 [m 47 40 3] ∧
    Fits effFwStageChunk 0 [1, 0] fwst ∧
    Fits effFwStageChunk 0 [mkWord [(24, 24, 1), (23, 0, 1)], 90] (fwhas whole) ∧
    Fits effFwStageRefused 0 [mkWord [(24, 24, 1), (23, 0, 1)], 0] fwst ∧
    Fits effFwLoad 0 [m 47 40 2, 0, 1] fwl ∧
    Fits effFwHandover 0 [m 47 40 2] fwl ∧
    Fits (effFwVersionCommit .programmed) 0 [] ∧
    Fits (effFwVersionCommit .programmed) 0 [] raised ∧
    Fits (effFwVersionCommit (.stuck true 3)) 0 [] raised ∧
    Fits (effFwVersionCommit (.stopped false 2)) 0 [] raised ∧
    Fits effFwStatus 0 [] ∧
    Fits effFwRestart 0 [] ∧
    Fits effLogRead 0 [m 31 16 3] := by
  and_intros <;> decide +kernel

/-- A device whose boot ROM waits for a bundle, with a push of three words from offset 0 on. -/
def pushing (op : Nat) (b : Byte) : Dev :=
  { cmds := [rq op 0xFF [0, 1, 90, 3]], boot := { progress := b }, power := { state := .active } }
theorem witness_PushesTaken : ∀ op ∈ [0x0D00, 0x1030], ∀ b ∈ [(0x05 : Byte), 0x0C],
    (let d := pushing op b; let r := rq op 0xFF [0, 1, 90, 3]
     r ∈ d.cmds ∧ romHalted d = false ∧ d.power.pfn = false ∧ (d.boot.progress = 0x05 ∨ d.boot.progress = 0x0C)
      ∧ (r.sized r.words.length && onlyBits (r.w 0) [(47, 47), (31, 0)] && decide (2 ≤ r.words.length) && decide (r.words.length ≤ 249)
        && !bitOf (r.w 0) 47) = true
      ∧ r.f 0 31 0 + (r.words.length - 1) ≤ pushLimit (pushHeaded r d) (overlay (r.f 0 31 0) (r.words.drop 1) d.boot.push)) := by decide +kernel

theorem witness_LongCommandsComplete :
    Fits effLongStatus 5 [1] (long 4 5 .stage) ∧
    Fits effLongSuspend 5 [1] (long 4 5 .stage) ∧
    Fits effLongResume 5 [1] (long 4 5 .stage .suspended) ∧
    Fits effLongCancel 5 [1] (long 4 5 .stage) ∧
    Fits effLongRelease 5 [1] (long 4 5 .stage .done) ∧
    Fits effLongList 5 [] (long 4 5 .stage) := by
  decide +kernel

theorem witness_AppletCommandsComplete :
    Fits effAppletLoad 5 [m 47 32 9, 0] ∧
    Fits effAppletLoadLast 5 (mkWord [(47, 32, 9), (24, 24, 1)] :: ximg) listed ∧
    Fits effAppletUnload 5 [m 47 32 9] app ∧
    Fits effAppletCall 5 [mkWord [(47, 32, 9), (15, 0, 3)], 7] app ∧
    Fits effAppletResult 5 [1] (long 6 5 .stage .done) ∧
    Fits effAppletTrigger 5 [mkWord [(47, 32, 9), (8, 8, 1), (7, 0, 2)], 1024] app ∧
    Fits effAppletStatus 5 [m 47 32 9] app ∧
    Fits effAppletList 5 [] app := by
  decide +kernel

theorem witness_ManagementCommandsComplete :
    FitsM effMgmtInfo [] ∧
    FitsM effMgmtSensors [] ∧
    FitsM effMgmtHealthRead [mkWord [(15, 8, 1), (7, 0, 1)]] ∧
    FitsM effMgmtLogRead [m 31 16 1] ∧
    FitsM effMgmtAddress [0, 8] ∧
    FitsM effMgmtPower [0, 2] ∧
    FitsM effMgmtPower [0, 3] ∧
    FitsM effMgmtFence [0, 1] ∧
    FitsM (effMgmtUnfence true) [0, 1] ∧
    FitsM (effMgmtUnfence false) [0, 1] ∧
    FitsM effMgmtRestart [0] := by
  and_intros <;> decide +kernel

theorem witness_OutgoingSuccessionComplete :
    Fits effSuccChallenge 0 [] fre ∧
    Fits effSuccBegin 0 (z 342) fre ∧
    Fits effSuccPackageRead 0 [m 47 32 2] out ∧
    Fits (effSuccCommit .programmed) 0 (z 29) out ∧
    Fits (effSuccCommit (.stuck true 3)) 0 (z 29) out ∧
    Fits (effSuccCommit (.stopped true 3)) 0 (z 29) out ∧
    Fits effSuccDepartureRead 0 [] att 0x3FFC0000 ∧
    Fits effSuccessionTransit 5 (m 7 0 1 :: flc 1 3 16) out5 := by
  decide +kernel

theorem witness_IncomingSuccessionComplete :
    Fits effSuccOffer 0 (z 10) fre ∧
    Fits effSuccReceive 0 [0, 7] inc0 ∧
    Fits effSuccReceiveLast 0 [m 24 24 1, 7] inc0 ∧
    Fits effSuccActivate 0 (z 39) inc ∧
    Fits effSuccRelease 0 (z 22) inc ∧
    Fits effSuccAbort 0 [] out ∧
    Fits effSuccAbort 0 [] inc ∧
    Fits effSuccClose 0 [] fre ∧
    Fits effSuccessionInherit 5 (m 7 0 1 :: flc 1 3 16) (fun d => {fre d with pat := d.pat}) ∧
    Fits effSuccStatus 0 [] out := by
  and_intros <;> decide +kernel

-- Events

/-- A device with every rail up, in a state of ACTIVE, with tick t. -/
def tickAt (t : Nat) (f : Dev → Dev := id) : Dev :=
  f { idle with power := { state := .active, railA := some true, railB := some true, railM := some true }, time := { tick := word t }
                portA := { admitting := true }, portB := { admitting := true } }

/-- A LINK_PING frame of port A. -/
def ping : List Word := [mkWord [(47, 40, 3), (31, 16, 0x0102), (15, 0, 7)], 0]
def pingFrame : List Word := ping ++ [trailer 1 ping]

/-- Rings of port A: a taken credit, an entered reply, a refusal. -/
def flowA : Flow := { a := { mailbox := 1, ring := [{}] } }
/-- A frame of three words under a version and a CRC. -/
def versioned (v : Nat) : List Word :=
  let ws := [mkWord [(47, 40, v), (31, 16, 0x0102), (15, 0, 7)], 0]
  ws ++ [trailer 1 ws]
def partial' (ws : List Word) (dead : Bool := false) (d : Dev) : Dev := { d with portA := { d.portA with rx := ws, rxDead := dead } }
theorem witness_LinkEventsHappen :
    (∀ p : Port, portLive (tickAt 9) p = true ∧ ((tickAt 9).port p).admitting = true ∧ ((tickAt 9).port p).rx = [])
    ∧ (frameLen ping ≤ Port.a.payloadMax ∧ frameWords ping ≤ Port.a.ringSize - ((tickAt 9).port .a).rxUsed ∧ ping.length < frameWords ping)
    ∧ (let d := partial' ping false (tickAt 9)
       portLive d .a = true ∧ (d.port .a).rx = ping ∧ 2 ≤ ping.length ∧ (d.port .a).rxDead = false ∧ (ping ++ []).length < frameWords (ping ++ []))
    ∧ (2 ≤ pingFrame.length ∧ frameLen pingFrame ≤ Port.b.payloadMax ∧ frameWords pingFrame ≤ Port.b.ringSize - ((tickAt 9).port .b).rxUsed ∧
      pingFrame.length = frameWords pingFrame ∧ (crc32c (wordsBytes pingFrame.dropLast)).toNat = fld (pingFrame.getLastD 0) 31 0 ∧
      (frameReq .b pingFrame).version = 3 ∧ ((tickAt 9).port .b).rxDead = false
      ∧ (({ b := { mailbox := 31 } } : Flow).port .b).mailbox + (({ b := { mailbox := 31 } } : Flow).port .b).ring.length < Port.b.credits)
    ∧ (let d := partial' ping false (tickAt 9); pingFrame = (d.port .a).rx ++ [trailer 1 ping] ∧ (d.port .a).rxDead = false)
    ∧ (Port.a.payloadMax < frameLen [3, m 47 24 (Port.a.payloadMax + 1)] ∧ frameLen [3, m 47 24 Port.a.payloadMax] ≤ Port.a.payloadMax)
    ∧ (let d := tickAt 9 (fun d => { d with portB := { d.portB with rxUsed := Port.b.ringSize } })
       frameLen ping ≤ Port.b.payloadMax ∧ Port.b.ringSize - (d.port .b).rxUsed < frameWords ping)
    ∧ (let ws := ping ++ [0]; ws.length = frameWords ws ∧ (crc32c (wordsBytes ws.dropLast)).toNat ≠ fld (ws.getLastD 0) 31 0)
    ∧ (let ws := versioned 4; ws.length = frameWords ws ∧ (crc32c (wordsBytes ws.dropLast)).toNat = fld (ws.getLastD 0) 31 0
      ∧ (frameReq .a ws).version = 4)
    ∧ (let ws := versioned 2; (frameReq .a ws).version = 2
      ∧ Port.b.credits ≤ (({ b := { mailbox := 32 } } : Flow).port .b).mailbox + (({ b := { mailbox := 32 } } : Flow).port .b).ring.length)
    ∧ (let d := partial' [1] false (tickAt 9); !(d.port .a).rx.isEmpty && !(d.port .a).rxDead && portLive d .a) = true
    ∧ (let d := tickAt 9 (fun d => { d with portA := {} }); portLive d .a && !(d.port .a).admitting && (d.port .a).rx.isEmpty) = true
    ∧ (portLive (tickAt 9) .a && ((tickAt 9).port .a).rx.length != 1) = true
    ∧ mgmtLive (tickAt 9) = true
    ∧ (let x : Reply := { req := rq 0x0102 5 [] }
       let d := tickAt 9 (fun d => { d with done := [x] })
       firstFor .a d.done = some x ∧ ringUsed (flowA.port .a) + (wireReply .a x d).1.length ≤ Port.a.ringSize ∧ deliveryPaused x d = false) := by
  refine ⟨?_, ?_⟩
  · intro p; cases p <;> decide +kernel
  · and_intros <;> decide +kernel

theorem witness_replies :
    (0 < (flowA.port .a).mailbox ∧ (flowA.port .a).refusal = none ∧ (flowA.port .a).ring = {} :: [])
    ∧ ((({ b := { refusal := some {} } } : Flow).port .b).refusal = some {} ∧ (({ b := { refusal := some {} } } : Flow).port .b).ringHead = false)
    ∧ (let f : Flow := { b := { refusal := some {}, ring := [{ tag := 4 }], ringHead := true } }
       (f.port .b).ringHead = true ∧ (f.port .b).ring = { tag := 4 } :: [])
    ∧ creditsOk flowA = true := by decide +kernel

def heldDev (k : HeldKind) : Dev := tickAt 9 (fun d => { d with held := [{ kind := k, reply := { req := { id := 4 } }, due := 9 }] })
def handing (c p : Nat) (d : Dev) : Dev := { d with fw := { d.fw with handover := some { ctype := c, phase := p, newBuild := 7 } } }
theorem witness_HeldRepliesDelivered :
    ((heldFor .refusal 4 (heldDev .refusal)).isSome && !handoverPause (heldDev .refusal)) = true
    ∧ handoverPause (handing 3 4 (heldDev .refusal)) = true ∧ handoverPause (handing 1 3 (heldDev .refusal)) = true
    ∧ ((heldFor .sessionOpen 4 (heldDev .sessionOpen)).isSome && dueHeld .sessionOpen 4 (heldDev .sessionOpen)) = true
    ∧ (heldFor .challenge 4 (heldDev .challenge)).isSome = true
    ∧ (let d := tickAt 2457600 ses; (sessionAt (d.port .a) 1).any (fun x => decide (x.seen + x.idle * 4096 ≤ d.now))) = true := by
  and_intros <;> decide +kernel

theorem witness_ManagementPortEventsHappen :
    (let d := tickAt 9 (fun d => { d with mgmt := { d.mgmt with reply := some [5] } })
     mgmtLive d && decide (d.mgmt.readAt < (d.mgmt.reply.getD []).length)) = true
    ∧ ({ (tickAt 9) with mgmt := { lockEnd := some 9 } } : Dev).mgmt.lockEnd.any (fun e => decide (e ≤ (tickAt 9).now)) = true := by decide +kernel

theorem witness_SupplyEventsHappen :
    State.reset.dev.power.state = .off
    ∧ ((tickAt 9).power.state != .off && (tickAt 9).power.state != .backup && !(tickAt 9).power.pfn) = true
    ∧ ∀ g, ((railOf g State.reset.dev.power).isNone && decide (1000 ≤ 1000) && 1000 != 2500) = true := by
  refine ⟨by decide +kernel, by decide +kernel, ?_⟩
  intro g; cases g <;> decide +kernel

def inState (p : Power) (d : Dev) : Dev := { d with power := { d.power with state := p } }
/-- PF_N is recognised in firmware, while the ROM waits for a host, in its recovery, in HIBERNATE. -/
def warned (d : Dev) : Dev := { d with power := { d.power with pfn := true } }
theorem witness_ResetAndWarningHappen :
    (powered (tickAt 9) && !(tickAt 9).power.pfn) = true
    ∧ (let d := inState .hibernate (tickAt 9)
       d.power.state == .hibernate && d.power.state != .off && d.power.state != .backup && !d.power.pfn) = true
    ∧ (warned (tickAt 9)).power.pfn = true ∧ (resumed (warned (tickAt 9))).boot.running = true
    ∧ (let d := warned (tickAt 9 (fun d => { d with boot := { progress := 0x05, refetch := true } }))
       d.power.pfn = true ∧ (resumed d).boot.running = false ∧ (resumed d).boot.refetch = true)
    ∧ (let d := warned (tickAt 9 (fun d => { d with boot := { progress := 0x0C } }))
       d.power.pfn = true ∧ (resumed d).boot.running = false ∧ (resumed d).boot.refetch = false ∧ (resumed d).boot.progress = 0x0C)
    ∧ (let d := warned (tickAt 9 (fun d => { d with boot := { progress := 0x01 } }))
       d.power.pfn = true ∧ (resumed d).boot.running = false ∧ (resumed d).boot.refetch = false ∧ (resumed d).boot.progress ≠ 0x0C) := by
  and_intros <;> decide +kernel

theorem witness_PowerStatesFollow :
    (let d := tickAt 5; d.boot.running && d.power.state == .active && !engineWork d && decide (d.power.workAt + 5 ≤ d.now)) = true
    ∧ (let d := tickAt (4 * 4096) (fun d => { d with pat := { d.pat with image := d.pat.image.set 8 (m 15 4 4) } })
       d.boot.running && (d.power.state == .active || d.power.state == .idle) && d.cfg 8 15 4 != 0
        && decide (d.power.frameAt + d.cfg 8 15 4 * 4096 ≤ d.now) && !(d.sched.longs.any (fun l => l.state == .running)) && d.dbg.halted.isEmpty) = true
    ∧ (∀ p : Port, (let d := inState .hibernate (tickAt 9); d.power.state == .hibernate && wakes (.select p) d) = true)
    ∧ (let d := inState .hibernate (tickAt 9); d.power.state == .hibernate && wakes .mgmtAddress d && wakes .speed d) = true
    ∧ (let d := inState .hibernate (tickAt 9 (fun d => { d with time := { d.time with alarms := [(5, 9)] } }))
       d.power.state == .hibernate && wakes .alarm d) = true
    ∧ (!(tickAt 9).power.throttle && decide (2080 ≤ (2080 : Int))) = true
    ∧ (tickAt 9 (fun d => { d with power := { d.power with throttle := true } })).power.throttle = true
    ∧ (powered (tickAt 9) || (tickAt 9).power.state == .hibernate) = true
    ∧ (inState .shutdown (tickAt 9)).power.state = .shutdown := by
  refine ⟨by decide +kernel, by decide +kernel, ?_, by decide +kernel, by decide +kernel, by decide +kernel, by decide +kernel, by decide +kernel,
    by decide +kernel⟩
  intro p; cases p <;> decide +kernel

/-- The ROM at a progress code. -/
def rom (b : Byte) (f : BootState → BootState) (d : Dev) : Dev := { d with boot := f { progress := b } }
theorem witness_StartUpHappens :
    (let d := tickAt 9 (rom 0x01 id)
     d.power.state == .active && !d.boot.running && d.boot.progress == 0x01 && !d.power.pfn && !d.dbg.halted.contains 1 && decide (d.boot.phase ≤ 3)) = true
    ∧ (∀ v ∈ [776, 824], (decide (776 ≤ v) && decide (v ≤ 824)) = true) ∧ (∀ v ∈ [775, 825], (decide (776 ≤ v) && decide (v ≤ 824)) = false)
    ∧ (let d := tickAt 40960 (rom 0x05 id)
       d.boot.progress == 0x05 && !d.power.pfn && !d.dbg.halted.contains 1 && !d.boot.pushStarted && decide (d.boot.waitSince + 40960 ≤ d.now)) = true
    ∧ (let d := tickAt 40960 (rom 0x05 (fun b => { b with pushStarted := true }))
       d.boot.progress == 0x05 && !d.power.pfn && d.boot.pushStarted && decide (d.boot.lastChunk + 40960 ≤ d.now)) = true
    ∧ (let d := tickAt 9 (fun d => rom 0x0D id { d with fuse := {} })
       d.boot.progress == 0x0D && d.lifecycle == .blank && fuseWindow d && !d.dbg.halted.contains 1) = true := by
  decide +kernel

theorem witness_ClockEventsHappen :
    (tickAt 9).power.state ≠ .off ∧ clockChecked (tickAt 9) = true
    ∧ (let d := inState .hibernate (tickAt 9); d.power.state != .off && !clockChecked d) = true
    ∧ (let d := tickAt 600 (fun d => { d with time := { d.time with onRc := true, passSince := some 88 } })
       clockChecked d && d.time.onRc && !d.time.stopped && d.time.passSince.any (fun t => decide (t + 512 ≤ d.now))) = true
    ∧ (let d := tickAt (2 ^ 22)
       d.boot.running && decide (d.time.ckptAt < ckptIndex d.now) && !d.power.pfn && d.time.ckptDue.isNone && d.time.ckptFirst.isNone) = true
    ∧ (let d := tickAt (2 ^ 22 + 4096) (fun d => { d with time := { d.time with ckptFirst := some (2 ^ 22), ckptDue := some (2 ^ 22 + 4096) } })
       decide (d.time.ckptAt < ckptIndex d.now) && d.time.ckptDue.all (fun t => decide (t ≤ d.now))) = true
    ∧ decide ((tickAt 512).time.bucketAt < (tickAt 512).now / 512) = true
    ∧ (let d := tickAt 9 (fun d => { d with time := { d.time with alarms := [(5, 9)] } })
       d.boot.running && d.time.alarms.any (fun a => a.1 == 5 && decide (a.2 ≤ d.now))) = true := by and_intros <;> decide +kernel

def moving (d : Dev) : Dev := { d with dist := { d.dist with moving := true } }
theorem witness_SpeedEventsHappen :
    (clockChecked (moving (tickAt 9)) = true ∧ filterWidth (moving (tickAt 9)) ≤ 21 ∧ (moving (tickAt 9)).dist.moving = true)
    ∧ (clockChecked (tickAt 9) = true ∧ (tickAt 9).dist.moving = false)
    ∧ (let d := inState .hibernate (tickAt 9); (d.power.state == .hibernate && decide (filterWidth d ≤ 21)) = true ∧ d.dist.moving = false)
    ∧ (let d := tickAt 1024; d.boot.running && decide (d.dist.gate < d.now / 1024)) = true
    ∧ (let d := moving (tickAt 9); clockChecked d && d.dist.moving && decide ((d.dist.last.getD 0) + ceilDiv (d.cfg 10 24 18 * 1048576) 10 ≤ 7000000)) = true
    ∧ (let d := tickAt 4096; d.boot.running && decide (d.jrn.traceAt < d.now / 4096)) = true
    ∧ (let d := tickAt 2457600; d.boot.running && !d.power.pfn && decide (d.jrn.mirrorAt < d.now / 2457600)) = true
    ∧ (let d := jrn (tickAt (2 ^ 22)); d.boot.running && !d.power.pfn && journalOpen d && decide (d.jrn.foldAt < d.now / 2 ^ 22)) = true := by
  and_intros <;> decide +kernel

/-- A command whose flacon the device can open, of tenant 5. -/
def flaconCmd (f : List Word) : Req := { rq 0x0302 5 (m 39 28 1 :: f) with id := 3 }
def flaconDev (f : List Word) : Dev := { devL 0x3FFFF (flaconCmd f) with keys := { cellsA := some cells } }

def staleOp (st : LongState) (d : Dev) : Dev := long 4 5 (.hashStream 1 []) st d
def isOk {α : Type} (x : Res α) : Bool := match x with
  | .ok _ => true
  | .error _ => false

theorem opens (r : Req) (f : List Word) (d : Dev) (n : Nat) (m : List Byte)
    (c1 : (fld (wd f 0) 39 32 == r.tenant.toNat && f.length == flaconLen f && headerBits f) = true) (c2 : (!heartBarred d) = true)
    (c3 : (((heartAt d r.tenant n).isSome || baseReachable d) && d.keys.derivationOk) = true) (e : tenantEpoch d r.gen r.tenant = n) (c4 : headerOk 1 f = true)
    (c5 : epochOk (touchHeart r.tenant n d) r.tenant (fld (wd f 0) 15 0) = true)
    (c6 : (touchHeart r.tenant n d).keys.staged.find? (fun x => x.id == r.id) = none)
    (o : openFlacon (flaconKeyOf (touchHeart r.tenant n d) r.tenant (tenantEpoch (touchHeart r.tenant n d) r.gen r.tenant) (fld (wd f 0) 15 0)) f = some m)
    (p : isOk (policyTail r.tenant r.gen f (touchHeart r.tenant n d)) = true) : isOk (unwrapFlacon r f d) = true := by
  unfold unwrapFlacon needHeart
  simp only [param, need, c1, c2, e, c3, c5, c4, c6, o, if_true, bind, Except.bind]
  revert p
  cases policyTail r.tenant r.gen f (touchHeart r.tenant n d) with
  | error x => intro h; exact h
  | ok x => intro _; rfl

/-- A flacon of 16 bytes: header, an IV and a ciphertext of zeros, and the tag under a key. -/
def tagOf (key : List Byte) : List Byte := gcmTag key (List.replicate 12 0) (wordsBytes (fl 1 3 16)) (List.replicate 16 0)
def flacon (key : List Byte) : List Word := fl 1 3 16 ++ z 2 ++ z 3 ++ bytesWordsN 3 (tagOf key ++ [0, 0])

theorem flacon_opens (key : List Byte) (h : (tagOf key).length = 16) :
    openFlacon key (flacon key) = some (gcmCrypt key (List.replicate 12 0) (List.replicate 16 0)) := by
  have m16 : fld (wd (flacon key) 5) 15 0 = 16 := by
    have : wd (flacon key) 5 = m 15 0 16 := rfl
    rw [this]; decide +kernel
  have c : wordsBytes (slice (flacon key) 8 (ceilDiv 16 6)) = List.replicate 18 0 := by
    have : slice (flacon key) 8 (ceilDiv 16 6) = z 3 := rfl
    rw [this]; decide +kernel
  have i : wordsBytes (slice (flacon key) 6 2) = List.replicate 12 0 := by
    have : slice (flacon key) 6 2 = z 2 := rfl
    rw [this]; decide +kernel
  have a : (flacon key).take 6 = fl 1 3 16 := rfl
  have t : wordsBytes (slice (flacon key) (8 + ceilDiv 16 6) 3) = tagOf key ++ [0, 0] := by
    have : slice (flacon key) (8 + ceilDiv 16 6) 3 = bytesWordsN 3 (tagOf key ++ [0, 0]) := rfl
    rw [this]; exact wordsBytes_bytesWordsN 3 _ (by simp [h])
  unfold openFlacon
  simp only [m16, c, i, a, t]
  have t1 : (tagOf key ++ [0, 0]).take 16 = tagOf key := by rw [← h]; simp
  have t2 : (tagOf key ++ [0, 0]).drop 16 = [0, 0] := by rw [← h]; simp
  rw [t1, t2]
  have g : gcmDec key (List.replicate 12 0) (wordsBytes (fl 1 3 16)) (List.replicate 16 0) (tagOf key)
      = some (gcmCrypt key (List.replicate 12 0) (List.replicate 16 0)) := by
    unfold gcmDec; rw [if_pos]; exact List.take_length
  exact g

/-- The flacon key of tenant 5 under the base key of that device. -/
def key5 : List Byte := flaconKeyOf (touchHeart 5 1 (flaconDev [])) 5 1 0
def sealed : List Word := flacon key5

theorem sealed_opens : isOk (unwrapFlacon (flaconCmd sealed) sealed (flaconDev sealed)) = true := by
  have h : (tagOf key5).length = 16 := by decide +kernel
  have e : tenantEpoch (touchHeart 5 1 (flaconDev sealed)) 0 5 = 1 := by decide +kernel
  have z0 : fld (wd sealed 0) 15 0 = 0 := by decide +kernel
  have k : flaconKeyOf (touchHeart 5 1 (flaconDev sealed)) 5 (tenantEpoch (touchHeart 5 1 (flaconDev sealed)) 0 5) (fld (wd sealed 0) 15 0) = key5 := by
    rw [e, z0]; rfl
  refine opens (flaconCmd sealed) sealed (flaconDev sealed) 1 _ (by decide +kernel) (by decide +kernel) (by decide +kernel)
    (by decide +kernel) (by decide +kernel) (by decide +kernel) (by decide +kernel) (Eq.trans (congrArg (fun x => openFlacon x sealed) k) (flacon_opens key5 h))
    (by decide +kernel)

theorem witness_flaconStage :
    (let r := flaconCmd sealed; let d := flaconDev sealed
     d.cmds.find? (fun r => r.id == 3) == some r && (queuedFlacon r).map (fun g => g.take (flaconLen g)) == some sealed && amongFour r d
        && !d.keys.staged.any (fun y => y.id == 3) && slotType (fld (wd sealed 0) 31 24)
        && decide (cacheHeld d r.tenant + cacheCost (fld (wd sealed 0) 31 24) ≤ quotaOf d r recCache)) = true
    ∧ ∃ m x, (match unwrapFlacon (flaconCmd sealed) sealed (flaconDev sealed) with
        | .ok y => y == (m, x)
        | .error _ => false) = true := by
  refine ⟨?_, ?_⟩
  · have c : (flaconDev sealed).cmds = [flaconCmd sealed] := rfl
    have q : (queuedFlacon (flaconCmd sealed)).map (fun g => g.take (flaconLen g)) = some sealed := rfl
    have i : (flaconCmd sealed).id = 3 := rfl
    have s : slotType (fld (wd sealed 0) 31 24) = true := by decide +kernel
    have u : decide (cacheHeld (flaconDev sealed) (flaconCmd sealed).tenant + cacheCost (fld (wd sealed 0) 31 24)
        ≤ quotaOf (flaconDev sealed) (flaconCmd sealed) recCache) = true := by decide +kernel
    have g : (flaconDev sealed).keys.staged = [] := rfl
    simp only [q, s, u, g, amongFour, c, List.find?, i, List.filter, beq_self_eq_true, List.take, List.any_nil, Bool.not_false, Bool.and_true]
    simp
  · have h := sealed_opens
    revert h
    cases unwrapFlacon (flaconCmd sealed) sealed (flaconDev sealed) with
    | error e => intro h; cases h
    | ok y => intro _; exact ⟨y.1, y.2, by simp⟩

theorem witness_ScheduleEventsHappen :
    decide ((tickAt 4096).sched.window < (tickAt 4096).now / 4096) = true
    ∧ (let r : Req := { id := 4, deadline := 8 }
       (tickAt 9 (fun d => { d with cmds := [r] })).cmds.find? (fun x => x.id == 4 && decide (x.deadline < 9)) == some r) = true
    ∧ (let j : CipherJob := { req := { id := 4, deadline := 8 } }
       let d := tickAt 9 (fun d => { d with sym := { d.sym with waiting := [j] } })
       !d.cmds.any (fun x => x.id == 4 && decide (x.deadline < d.now)) && d.sym.waiting.find? (fun x => x.req.id == 4 && decide (x.req.deadline < d.now)) == some j) = true
    ∧ (let l : LongOp := { handle := 1, cmd := 4, kind := 6, state := .queued, deadline := 8, data := .applet { tenant := 5, id := 9 } [] 0 }
       let d := tickAt 9 (fun d => { d with sched := { d.sched with longs := [l] } })
       !d.cmds.any (fun x => x.id == 4 && decide (x.deadline < d.now)) && !d.sym.waiting.any (fun x => x.req.id == 4 && decide (x.req.deadline < d.now))
        && !d.pk.waiting.any (fun x => !isRsaJob x && x.req.id == 4 && decide (x.req.deadline < d.now))
        && d.sched.longs.find? (fun x => x.cmd == 4 && !x.internal && x.state = .queued && decide (x.deadline < d.now)) == some l) = true
    ∧ (longAt (staleOp .running (tickAt 9)) 1).any (fun l => match l.data with
        | .applet _ _ _ => false
        | _ => true) = true
    ∧ (let d := staleOp .suspended (tickAt 9); (longAt d 1).any (fun l => l.state == .suspended && decide (l.suspTick + d.cfg 8 27 16 * 4096 < d.now))) = true
    ∧ (let d := staleOp .done (tickAt 245760); (longAt d 1).any (fun l => l.state.final && decide (l.endTick + 245760 ≤ d.now))) = true
    ∧ (({ (tickAt 9) with keys := { zeroising := 1 } } : Dev).keys.zeroising != 0) = true := by
  and_intros <;> decide +kernel

/-- A job of `n` bytes at level 0, which draws nothing, and its lane's device. -/
def job (n : Nat) (f : CipherJob → CipherJob := id) : CipherJob := f { req := { rq 0x0401 5 [] with id := 4 }, data := List.replicate n 0, level := 0 }
def laneDev (j : CipherJob) (t : Nat := 9) : Dev := tickAt t (fun d => { d with sym := { d.sym with lanes := d.sym.lanes.set 2 { job := some j } } })
/-- A program that has run its time, and the device that runs it on engine 1. -/
def pkj (f : PkJob → PkJob := id) : PkJob := f { req := rq 0x0604 5 [], prog := 0x02 }
def pkDev (f : PkJob → PkJob := id) : Dev := tickAt 1000000 (fun d => { d with pk := { engines := [{}, { job := some (pkj f) }] } })
theorem witness_EngineJobsEnd :
    (let j := job 16; let d := laneDev j 1000001; onLane 2 j d && !inTime j (handedIn 2 5 j d)) = true
    ∧ (let j := job 16; let d := laneDev j 1000000
       onLane 2 j d && inTime j (handedIn 2 5 j d) && !j.withheld && j.stream.isNone && decide (jobBlocks j ≤ (advanced j).blocks)) = true
    ∧ (let j := job 16 (fun j => { j with stream := some 1 }); let d := laneDev j
       onLane 2 j d && inTime j (handedIn 2 5 j d) && !j.withheld && j.stream == some 1 && decide (jobBlocks j ≤ (advanced j).blocks)) = true
    ∧ (let j := job 16 (fun j => { j with withheld := true }); let d := laneDev j; onLane 2 j d && inTime j (handedIn 2 5 j d) && j.withheld) = true
    ∧ (let j := job 16; let d := laneDev j 1000001; onLane 2 j d && !inTime j (laneMismatch 2 0 j.req.tenant (handedIn 2 5 j d))) = true
    ∧ (let j := job 16; let d := laneDev j; onLane 2 j d && inTime j (laneMismatch 2 0 j.req.tenant (handedIn 2 5 j d)) && !j.withheld && !j.retried) = true
    ∧ (let j := job 16 (fun j => { j with retried := true }); let d := laneDev j
       onLane 2 j d && inTime j (laneMismatch 2 0 j.req.tenant (handedIn 2 5 j d)) && !j.withheld && j.retried) = true
    ∧ (∀ f ∈ [id, (fun j : PkJob => { j with abandoned := true }), (fun j => { j with revoked := true }), (fun j => { j with withheld := true }),
        (fun j => { j with prog := 0x03, chain := [0x07] })],
       (engineJob (pkDev f) 1 == some (pkj f) && !responseDue (pkDev f)
        && decide ((pkj f).started + progUs (pkj f).prog * 4096 / 1000000 ≤ (pkDev f).now)) = true) := by
  and_intros <;> decide +kernel

theorem logAt_time (c : Byte) (p : Nat) (a b : Word) (k : Bool) (d : Dev) : (logAt c p a b k d).time = d.time :=
  congrArg (·.1.2.1) (unitsOf_logAt c p a b k d)
theorem handedIn_now (l : Fin 9) (us : Nat) (j : CipherJob) (d : Dev) : (handedIn l us j d).now = d.now := by
  unfold handedIn traceT Dev.now
  rw [logAt_time]
  exact congrArg (fun x => x.tick.toNat) (runQuantum_time ..)

/-- A job of 16,385 bytes and more has a second quantum. -/
theorem witness_nextQuantum (n : Nat) (h : 16385 ≤ n) :
    (let j := job n; let d := laneDev j
     onLane 2 j d && inTime j (handedIn 2 5 j d) && !j.withheld && decide ((advanced j).blocks < jobBlocks j)) = true := by
  have h1 : onLane 2 (job n) (laneDev (job n)) = true := by
    have : ((laneDev (job n)).sym.lanes.getD (2 : Fin 9).val {}).job = some (job n) := rfl
    simp only [onLane]
    rw [this]
    simp [responseDue, laneDev, tickAt, idle, devL]
  have h2 : inTime (job n) (handedIn 2 5 (job n) (laneDev (job n))) = true := by
    unfold inTime
    rw [handedIn_now]
    rfl
  have h3 : (advanced (job n)).blocks = 1024 := rfl
  have h4 : jobBlocks (job n) = (n + 15) / 16 := by simp [jobBlocks, job, ceilDiv]
  have h6 : (job n).withheld = false := rfl
  dsimp only
  rw [h1, h2, h3, h4, h6]
  simp; omega

/-- A slot whose nonce reservation is under way for the command. -/
def nonceSlot : Slot := { slot 1 3 with nonce := some { reserving := true } }
def resv : Reservation := { id := 4, tenant := 5, index := 1 }
def resvDev (l : List Req) : Dev := tickAt 9 (fun d => { d with cmds := l, keys := { slots := [nonceSlot] }, nvm := { d.nvm with reservations := [resv] } })
theorem witness_UnitEventsHappen :
    (let w : NvmWrite := {}; (tickAt 9 (fun d => { d with nvm := { writes := [w] } })).nvm.writes.head? == some w) = true
    ∧ (!(tickAt 9).power.pfn && decide (16 < (tickAt 9).nvm.spare)) = true
    ∧ (∀ l : Fin 9, (!laneOut (tickAt 9) l.val) = true)
    ∧ (∀ u : Fin 4, (!clusterOut (tickAt 9) u.val && !((tickAt 9).sym.clusters.getD u.val {}).hashFenced) = true)
    ∧ (∀ e : Fin 2, engineServes (tickAt 9) e.val = true)
    ∧ (let d := resvDev []
       d.nvm.reservations.find? (fun y => y.id == 4) == some resv && !(limitRaised resv d).cmds.any (fun r => r.id == 4) && !d.cmds.any (fun r => r.id == 4)) = true
    ∧ (let r := { rq 0x0401 5 [h1] with id := 4 }
       let d := resvDev [r]
       d.nvm.reservations.find? (fun y => y.id == 4) == some resv && (limitRaised resv d).cmds.find? (fun y => y.id == 4) == some r && r.opcode == 0x0401) = true := by
  and_intros <;> decide +kernel

theorem witness_FaultEventsHappen :
    (∀ c : CoreId, (let d := tickAt 410
      powered d && d.boot.running && d.boot.progress != 0 && !coreHalted c d && (adopting c d).isNone && decide (d.boot.enteredAt ≤ 0) && decide (0 + 410 ≤ d.now)) = true)
    ∧ (∀ n : Fin 4, CoreId.sec ≠ .cc n)
    ∧ (∀ n : Fin 4, (let d := tickAt 410; decide (clusterSince n.val d ≤ 0) && decide (0 + 410 ≤ d.now)) = true)
    ∧ coreHalted .sec (tickAt 9 (fun d => { d with dbg := { d.dbg with halted := [1] } })) = true
    ∧ (adopting .sec (handing 1 4 (tickAt 9))).isSome = true ∧ (tickAt 409).now < 0 + 410
    ∧ (let d := tickAt 9 app; d.boot.running && appletAt d { tenant := 5, id := 9 } == some ap) = true := by
  refine ⟨?_, ?_, ?_, by decide +kernel, by decide +kernel, by decide +kernel, by decide +kernel⟩
  · intro c
    cases c with
    | cc n => revert n; decide +kernel
    | _ => decide +kernel
  · intro n h; cases h
  · decide +kernel

def romOn (b : Byte) : Dev := tickAt 9 (rom b id)
theorem witness_TamperEventsHappen :
    (let d := tickAt 9; !isEvent 3 && !(srcState d 3).confirmed && answersNow 3 d && d.boot.running) = true
    ∧ (let d := romOn 0x05; !isEvent 3 && !(srcState d 3).confirmed && answersNow 3 d && !d.boot.running) = true
    ∧ (let d := tickAt 9 (fun d => { d with fuse := {} })
       !isEvent 3 && !(srcState d 3).confirmed && watched d 3 && !srcDisabled d 3 && d.lifecycle == .blank) = true
    ∧ (let d := tickAt 9; !(srcState d 20).confirmed && watched d 20 && !srcDisabled d 20 && d.lifecycle != .blank && !(srcState d 20).responded) = true
    ∧ (let d := tickAt 9; isEvent 27 && answersNow 27 d && d.boot.running) = true
    ∧ (let d := tickAt 9; watched d 16 && !srcDisabled d 16 && d.lifecycle != .blank && d.boot.running) = true
    ∧ (let x : Latch := { src := 20 }
       let d := tickAt 64 (fun d => { d with tamper := { d.tamper with underHold := some x } })
       d.tamper.underHold == some x && decide (x.tick + 64 ≤ d.now)) = true
    ∧ decide ((tickAt 9).tamper.holdEnd ≤ (tickAt 9).now) = true
    ∧ ((tickAt 9 (fun d => { d with tamper := { response := some 2 } })).tamper.response == some 2) = true
    ∧ (let d := { romOn 0x05 with tamper := { sources := [{ confirmed := true, level := 2, latch := some { level := 2 } }] } }
       d.tamper.response.isNone && d.power.state == .active && !d.boot.running && latchedResponse d == some 2) = true
    ∧ (let d := tickAt 9; resenses d && bandsAt d.fuse.above 400 == d.fuse.above) = true
    ∧ (let d := tickAt 9; resenses d && bandsAt d.fuse.above 640 != d.fuse.above) = true := by
  and_intros <;> decide +kernel

theorem witness_UpdateEventsHappen :
    (let x : SwitchDue := { gen := 3, k1 := 9 }
     let d := tickAt 9 (fun d => { d with pat := { d.pat with due := some x } }); d.pat.due == some x && decide (x.k1 ≤ d.now) && d.boot.running) = true
    ∧ (let h : HandoverState := { ctype := 2, phase := 2, newBuild := 7 }
       let d := handing 2 2 (tickAt (msTicks 50)); (d.fw.handover == some h && h.phase == 2 && !responseDue d) = true ∧ h.began + msTicks 50 ≤ d.now)
    ∧ (let h : HandoverState := { ctype := 2, phase := 4, newBuild := 7 }
       let d := handing 2 4 (tickAt (msTicks 200)); d.fw.handover = some h ∧ h.phase = 4 ∧ h.seamTick + msTicks 200 ≤ d.now ∧ responseDue d = false ∧ recordFits h = false)
    ∧ recordFits { ctype := 2, phase := 4, newBuild := 7, record := [mkWord [(47, 40, 1), (39, 32, 2)], 5, 7] } = true
    ∧ responseDue (tickAt 9 (fun d => { d with tamper := { response := some 2 } })) = true
    ∧ (let d := tickAt (2 ^ 24) (fun d => { d with succ := { state := 1 } }); d.succ.state = 1 ∧ d.succ.committing = false ∧ d.succ.began + 2 ^ 24 ≤ d.now) := by
  and_intros <;> decide +kernel

-- Applets

/-- Applet 9 of tenant 5 with an activation in work, its code and its data, all registers zero but for one. -/
def me : AppletRef := { tenant := 5, id := 9 }
def act (t : Activation) : Activation := { t with handle := 1, started := true }
def host (code : List (BitVec 24)) (t : Activation) (st : LongState := .running) (f : Applet → Applet := id) : Dev :=
  tickAt 2048 (fun d => long 6 5 .stage st { d with app := { applets := [f { ap with code := code, data := z 4, act := some t }] } })
theorem witness_AppletEventsHappen :
    (let f (x : Applet) : Applet := { x with enabled := [2], period := 1024 }
     let d := host [0] {} .running f
     (appletAt d me).any (fun x => x.enabled.contains 2 && decide (x.timerAt < d.now / x.period))) = true
    ∧ (let t : Activation := { handle := 1 }
       let d := host [0] t .queued
       (appletAt d me).any (fun x => x.act == some t && x.loaded && !appletHalted d x) && (longAt d 1).any (fun l => l.state == .queued && !l.internal)
        && (longAt (host [0] t .queued) 1).any (fun l => decide (l.deadline < d.now)) && !t.started && !dispatchStopped d && coresRun d && !laneTimeUp d d.pat.gen me.tenant) = true
    ∧ (let t : Activation := { handle := 1 }
       let d := { host [0] t .queued with time := {} }
       (longAt d 1).any (fun l => decide (d.now ≤ l.deadline)) && !laneTimeUp d d.pat.gen me.tenant) = true
    ∧ (let t := act { fuel := 10, mark := 4106 }
       let d := host [0] t
       (appletAt d me).bind (·.act) == some t && t.started && t.call.isNone && checkpointDue t && (longAt d t.handle).any longRunning) = true
    ∧ (let c : ServiceCall := { id := 7, buffer := 1, capacity := 6 }
       let t := act { call := some c }
       let y : Reply := { req := { origin := .applet me, id := 7 } }
       let d := { host [0] t with done := [y] }
       (appletAt d me).any (fun x => x.act == some t && !appletHalted d x) && t.call == some c && coresRun d
        && d.done.find? (fun y => y.req.origin == .applet me && y.req.id == c.id) == some y) = true := by and_intros <;> decide +kernel

/-- The activation of the witnesses, with its fuel, and the applet that runs it. -/
def live (n : Nat) : Activation := act { fuel := n, mark := n }
def apOn (code : List (BitVec 24)) (n : Nat) : Applet := { ap with code := code, data := z 4, act := some (live n) }
theorem executes_live (code : List (BitVec 24)) (n : Nat) : executing (host code (live n)) me = some (apOn code n, live n) := by
  have h1 : appletAt (host code (live n)) me = some (apOn code n) := by simp [appletAt, host, tickAt, long, ap, me, apOn]
  have h2 : laneTimeUp (host code (live n)) 0 me.tenant = false := by
    have h : (host code (live n)).tenant 0 me.tenant = idle.tenant 0 me.tenant := rfl
    have k : statOf (host code (live n)) me.tenant = statOf idle me.tenant := rfl
    have : laneTimeUp idle 0 me.tenant = false := by decide +kernel
    unfold laneTimeUp at this ⊢
    rw [h, k]; exact this
  have h3 : (longAt (host code (live n)) 1).any (fun l => longRunning l && !laneTimeUp (host code (live n)) l.gen me.tenant) = true := by
    rw [show longAt (host code (live n)) 1 = some { handle := 1, kind := 6, tenant := 5, state := .running, data := .stage, result := [0] } by
      simp [longAt, host, tickAt, long]]
    simp [longRunning, h2]
  have h4 : checkpointDue (live n) = false := by simp [checkpointDue, live, act]
  have h5 : (live n).handle = 1 := rfl
  have h6 : coresRun (host code (live n)) = true := by simp [coresRun, host, tickAt, long, idle, devL]
  have h7 : appletHalted (host code (live n)) (apOn code n) = false := by simp [appletHalted, host, tickAt, long, idle, devL]
  unfold executing
  rw [h1]
  simp only [apOn, h4, h5, h3, h6] at h7 ⊢
  rw [h7]
  rfl

/-- Every instruction can stand at the PC of a running activation, with the fuel of the dearest one and a next instruction; or at the
end of the code, where R658 ends the activation. -/
theorem witness_instruction (i : AppletInstr) (cost : Nat) (h : cost ≤ 16) :
    atInstr me i cost (apOn [encodeApplet i, 0] 16) (live 16) (host [encodeApplet i, 0] (live 16)) ∧ (live 16).pc + 1 < (apOn [encodeApplet i, 0] 16).code.length
    ∧ atInstr me i cost (apOn [encodeApplet i] 16) (live 16) (host [encodeApplet i] (live 16)) ∧ atLast (apOn [encodeApplet i] 16) (live 16) :=
  ⟨⟨executes_live _ _, rfl, h⟩, by simp [live, act, apOn], ⟨executes_live _ _, rfl, h⟩, by simp [atLast, live, act, apOn]⟩

/-- Loads and stores of the first word and byte are inside four words of data, of word 4 and byte 24 they are not; so are the buffers
of a service call and of HALT with their length registers zero; the branch that leaves the code. -/
theorem witness_operands :
    memAddr (act {}) 1 0 < (z 4).length ∧ memAddr (act {}) 1 23 < 6 * (z 4).length ∧ (z 4).length ≤ memAddr (act {}) 1 4 ∧ 6 * (z 4).length ≤ memAddr (act {}) 1 24
    ∧ inData { ap with data := z 4 } (wd (act {}).regs 1) (wd (act {}).regs 2).toNat = true ∧ (wd (act {}).regs 2).toNat ≤ 4096
    ∧ branchTo (reg (act {}) 1 = 0) 0 (act {}) < 2 ∧ 2 ≤ branchTo (reg (act {}) 1 = 0) 1 (act {}) ∧ branchTo (reg (act {}) 1 ≠ 0) 1 (act {}) < 2
    ∧ ((1 : BitVec 15).toNat < 2 ∧ 2 ≤ (2 : BitVec 15).toNat) ∧ (reg (act {}) 1).toNat % 32768 < 2
    ∧ 2 ≤ (reg (act { regs := (act {}).regs.set 1 2 }) 1).toNat % 32768 := by decide +kernel

/-- A RAND that 3 units of fuel cannot pay. -/
theorem witness_unpaidRand : executing (host [encodeApplet (.rand 1), 0] (live 3)) me = some (apOn [encodeApplet (.rand 1), 0] 3, live 3) ∧ (live 3).fuel < 4 :=
  ⟨executes_live _ _, by decide⟩

-- Debug and boundary scan

def tap (f : DebugState → DebugState) (d : Dev) : Dev := { d with dbg := f { ir := 0x10, attached := true } }
def blank : Dev := tickAt 9 (fun d => { d with fuse := {} })
theorem witness_TapInstructionsHappen : (tapLive blank && tapOpen blank) = true ∧ (tapLive (tickAt 9) && !tapOpen (tickAt 9)) = true := by decide +kernel

theorem witness_DebugRequestsHappen :
    (∀ core ∈ [(1 : BitVec 4), 2, 3, 8, 9, 10, 11], dbgReady core (tap id blank) = true)
    ∧ (dbgReady 3 (tap id blank) && haltAllowed (tap id blank) 3) = true
    ∧ (let d := tap id (tickAt 9); dbgReady 1 d && d.boot.running && d.lifecycle != .manufacture) = true
    ∧ ((tap (fun x => { x with held := some 3 }) blank).dbg.held == some 3) = true
    ∧ (let d := tap (fun x => { x with halted := [3] }) blank; dbgReady 3 d && d.dbg.halted.contains (3 : BitVec 4).toNat) = true
    ∧ (let d := tap (fun x => { x with held := some 3 }) blank; tapLive d && d.dbg.attached && d.dbg.ir == 0x10 && d.dbg.held.isSome) = true := by
  decide +kernel

-- The machine

theorem witness_queue : ({ pending := [.legalTick] } : State).pending = .legalTick :: [] ∧ State.reset.pending = [] := ⟨rfl, rfl⟩
theorem witness_ResetAndMaskValues : ∀ p : Port, portLive (tickAt 9) p = true := by intro p; cases p <;> rfl
theorem witness_AppletEncodeOfDecode : decodeApplet 0xE00701 = some (.svc 0x0701) := by decide +kernel
theorem witness_IndexedStoresCanonical : countersWf [{ index := 3, holder := 5, value := 7 }] = true ∧ wordsWf [(4, 1), (9, 2)] = true := by decide +kernel
theorem witness_PulsesAreCounted : filterWidth (tickAt 9) = 21 ∧ (inState .backup (tickAt 9)).power.state = .backup := by decide +kernel
theorem witness_DepartedTakesL3AsL2 : ({ idle with fuse := { shadow := 0x3FFC0000 :: z 95 } } : Dev).lifecycle = .departed
    ∧ idle.lifecycle ≠ .departed ∧ idle.lifecycle ≠ .scorched := by decide +kernel
theorem witness_RestartsEmptyTheLink : powered (tickAt 9) = true ∧ (tickAt 9).boot.running = true ∧ coreHalted .sec (tickAt 9) = false
    ∧ (inState .shutdown (tickAt 9)).power.state = .shutdown ∧ ({ idle with tamper := { response := some 3 } } : Dev).tamper.response = some 3 := by decide +kernel

/-- FIPS 197, appendix B: the key and the block. -/
def fipsKey : List Byte := beBytes 16 0x2b7e151628aed2a6abf7158809cf4f3c
def fipsBlock : List Byte := beBytes 16 0x3243f6a8885a308d313198a2e0370734
/-- Basting rounds before the first real round, in the middle and after the last, and two odd strides. -/
def plan : BlockPlan := { basting := [0, 3, 10], orders := [(5, 3), (15, 15)], key := List.replicate 16 7 }
theorem witness_LaneChoicesKeepTheBlock : 2 ≤ (aesKeys fipsKey).length ∧ (∀ k ∈ aesKeys fipsKey, k.length = 16) ∧ fipsBlock.length = 16
    ∧ ∀ o ∈ plan.orders, o.2 % 2 = 1 := by decide +kernel
theorem witness_SpiTransactionsCommand : (65535 < 65536 ∧ ([1, 2, 3, 4, 5] : List Byte).length < 6) ∧ ((0 : Byte).toNat = 0 ∧ 5 < (6 : Byte).toNat)
    ∧ (3 : Byte) ≠ ~~~2 ∧ portLive (tickAt 9) .a = true ∧ 6 < 0 + 7 ∧ headReply (flowA.port .a) = some {} := by decide +kernel
theorem witness_PinsFollowTheirGroups :
    (∀ p ∈ [Pin.aSck, .bCsN, .mSda, .tck, .spdIn], groupLive State.reset.dev p.group = false)
    ∧ (let d := tickAt 9 (rom 0 id); (∀ p ∈ scanPins, groupLive d p.group = true) ∧ scanHoldsPorts d = false ∧ d.boot.progress = 0 ∧ Pin.aCsN ≠ .mAlertN)
    ∧ (tap (fun x => { x with ir := 0x04 }) blank).dbg.ir = 0x04 ∧ Pin.bootSel 1 ∈ scanPins
    ∧ (groupLive (tickAt 9) .a = true ∧ groupLive (tickAt 9) .b = true ∧ scanHoldsPorts (tickAt 9) = false ∧ (tickAt 9).boot.progress ≠ 0)
    ∧ (tickAt 9).power.state ≠ .off := by and_intros <;> decide +kernel

-- WellFormed refuses and accepts

theorem test_wf_good : WellFormed (.hash (rq 0x0501 5 [1, 7])) = true := by decide
theorem test_wf_opcode : WellFormed (.hash (rq 0x0502 5 [1, 7])) = false := by decide
theorem test_wf_wordCount : WellFormed (.hash { rq 0x0501 5 [1, 7] with len := 13 }) = false := by decide
theorem test_wf_partWord : WellFormed (.hash { rq 0x0501 5 [1, 7] with len := 7 }) = true := by decide
theorem test_wf_length : WellFormed (.hash { rq 0x0501 5 [] with len := 2 ^ 24 }) = false := by decide
theorem test_wf_frame : WellFormed (.requestFrame .a 0 [1]) = true := by decide
theorem test_wf_emptyFrame : WellFormed (.requestFrame .a 0 []) = false := by decide
theorem test_wf_frameOffset : WellFormed (.requestFrame .a 65536 [1]) = false := by decide
theorem test_wf_fuse : WellFormed (.fuseResense 400 [{ word := 95, reads := List.replicate 6 none }]) = true := by decide
theorem test_wf_fuseWord : WellFormed (.fuseResense 400 [{ word := 96, reads := List.replicate 6 none }]) = false := by decide
theorem test_wf_fuseReads : WellFormed (.fuseResense 400 [{ word := 0, reads := List.replicate 5 none }]) = false := by decide
theorem test_wf_romReads : WellFormed (.bootRomFlow { reads := [{ word := 96, reads := List.replicate 6 none }] }) = false := by decide

-- Applet words: the worked case of R656-R671's chapter, and formats written out field by field (R656, R657)

theorem test_decode_ldi : decodeApplet 0x758100 = some (.ldi 6 0x100) := by decide
theorem test_decode_shli : decodeApplet 0x61DC28 = some (.shli 7 7 40) := by decide
theorem test_decode_st : decodeApplet 0x85D800 = some (.st 7 6 0) := by decide
theorem test_decode_addi : decodeApplet 0x505800 = some (.addi 1 6 0) := by decide
theorem test_decode_svc : decodeApplet 0xE00701 = some (.svc 0x0701) := by decide
theorem test_decode_halt : decodeApplet 0x040000 = some .halt := by decide
theorem test_decode_add : decodeApplet 0b000100_0001_0010_0011_000000 = some (.add 1 2 3) := by decide
theorem test_decode_jmp : decodeApplet 0b110000_000_000000000000101 = some (.jmp 5) := by decide
theorem test_decode_rand : decodeApplet 0b111011_0010_00000000000000 = some (.rand 2) := by decide
theorem test_decode_reserved : decodeApplet 0x0C0000 = none ∧ decodeApplet 0x040001 = none := by decide

-- Behaviour: the value is the spec's or a published one

/-- The device after a command. -/
def after (c : Instr) (d : Dev) : Dev := match exec c { dev := d } with
  | .next s => s.dev
  | _ => d

/-- The check value of CRC-32C over the digits 1 to 9 (R190). -/
theorem test_crc32c : crc32c (ascii [0x31, 0x32, 0x33, 0x34, 0x35, 0x36, 0x37, 0x38, 0x39]) = 0xE3069283 := by decide +kernel
/-- FIPS 197, appendix B: as AES states it, and as a lane with basting rounds and two byte orders runs it (R358, R359). -/
theorem test_aes128 : aesEnc fipsKey fipsBlock = beBytes 16 0x3925841d02dc09fbdc118597196a0b32 := by decide +kernel
theorem test_laneBlock : laneBlock false (aesKeys fipsKey) plan fipsBlock = beBytes 16 0x3925841d02dc09fbdc118597196a0b32
    ∧ laneBlock true (aesKeys fipsKey) plan (beBytes 16 0x3925841d02dc09fbdc118597196a0b32) = fipsBlock := by decide +kernel
/-- An image signed by hand under the base point verifies, and with one bit of its code changed it does not (RFC 8032, R673). -/
theorem test_imgVerifies : imgVerifies ximg = true ∧ imgVerifies (setAt ximg 8 (m 47 24 0x040001)) = false := by decide +kernel
/-- REG_WRITE of ATTN_MASK at index 2 of port A, the complement of the instruction behind it, the low byte of a word first (R5, R174, R176). -/
theorem test_spiRegWrite : spiOps .a [0x02, 0xFD, 0x02, 0x00, 0x23, 0xF1, 0, 0, 0, 0x80] = [.regWrite 2 0x80000000F123] := by decide +kernel
theorem test_spiReserved : spiOps .b [0x06, 0, 0] = [.linkError] ∧ spiOps .a [0x02, 0x02, 0x02, 0x00] = [.linkError] := by decide +kernel
/-- The boundary register has 72 cells (R704). -/
theorem test_scanCells : (scanPins.map scanCells).foldl (· + ·) 0 = 72 := by decide +kernel
theorem test_tick : (after .legalTick (tickAt 9)).time.tick = 10 := by decide +kernel
theorem test_mask : ((after (.regWrite (.port .a) 2 0xF123) (tickAt 9)).port .a).mask = 0x123 := by decide +kernel
theorem test_pulse : (after (.spdPulse 21 21 5) (tickAt 9)).dist.pulses = 1 ∧ (after (.spdPulse 20 21 5) (tickAt 9)).dist.pulses = 0 := by decide +kernel
theorem test_ping : (after (.linkPing (rq 0x0102 5 [])) (devL 0x3FFFF (rq 0x0102 5 []))).done.map (·.status) = [0] := by decide +kernel
theorem test_pingLength : (after (.linkPing (rq 0x0102 5 [0])) (devL 0x3FFFF (rq 0x0102 5 [0]))).done.map (·.status) = [0x20] := by decide +kernel
theorem test_extestClosed : (after .extest (tickAt 9)).dbg.ir = 0x1F ∧ (after .extest blank).dbg.ir = 0 := by decide +kernel
/-- PMC's PKT_WINDOW shows the reply word, PEEKED, and the reply pointer does not move (R690, worked case of 17_debug). -/
theorem test_peek : (let d := after (.dbgRead 2 0x100) (tap id { blank with mgmt := { blank.mgmt with reply := some [7] } });
    d.dbg.data = 7 ∧ d.dbg.result = 2 ∧ d.mgmt.readAt = 0) := by decide +kernel
/-- A register of the activation after one instruction, register 2 all ones and register 3 one before it (R656, R658). -/
def regAfter (c : Instr) (i : AppletInstr) (n : Nat) : Option Word :=
  let t : Activation := { live 16 with regs := [0, 0, BitVec.allOnes 48, 1] ++ z 12 }
  (((appletAt (after c (host [encodeApplet i, 0] t)) me).bind (·.act)).map (fun t => wd t.regs n))
theorem test_addWraps : regAfter (.add me 1 2 3) (.add 1 2 3) 1 = some 0 := by decide +kernel
theorem test_divByZero : regAfter (.divu me 1 3 4) (.divu 1 3 4) 1 = some (BitVec.allOnes 48) := by decide +kernel
theorem test_ldiSigned : regAfter (.ldi me 1 0x3FFF) (.ldi 1 0x3FFF) 1 = some (BitVec.allOnes 48) := by decide +kernel
theorem test_sarSigned : regAfter (.sar me 1 2 3) (.sar 1 2 3) 1 = some (BitVec.allOnes 48) := by decide +kernel

end Sys2Proof.Tests
end

section
/-! PROOFS. One instruction of an applet that executes it with its fuel there: what its charge, a register write and a store of data
memory leave of the device (R656, R658). -/
namespace Sys2Proof.Machine

/-- An instruction that its applet can execute runs its body on the charged activation and device. -/
theorem appletInstr_atInstr {a : AppletRef} {i : AppletInstr} {cost : Nat} {body : Applet → Activation → Dev → Dev} {s : State}
    {x : Applet} {t : Activation} (h : atInstr a i cost x t s.dev) :
    appletInstr a i cost body s = .next { s with dev := body x { t with fuel := t.fuel - cost } (charged a cost t s.dev) } := by
  obtain ⟨hrun, hcode, hfuel⟩ := h
  simp [appletInstr, lift, hrun, hcode, Nat.not_lt.2 hfuel, charged]

/-- The activation put in place by an instruction replaces the one its charge put in place. -/
theorem setAct_charged (a : AppletRef) (cost : Nat) (t u : Activation) (d : Dev) :
    setAct a u (charged a cost t d) = actAfter a u d :=
  setAct_setAct a _ u _

/-- The same for an instruction that stores into data memory as well. -/
theorem modData_setAct_charged (a : AppletRef) (cost : Nat) (t u : Activation) (data : List Word) (d : Dev) :
    modApplet a (fun y => { y with data := data }) (setAct a u (charged a cost t d)) = dataAfter a u data d := by
  rw [setAct_charged]
  exact modApplet_modApplet a (fun y => { y with act := some u }) (fun y => { y with data := data }) (fun _ => rfl) _

/-- A write of rd that falls through inside the code, after the charge. -/
theorem toReg_charged {a : AppletRef} {rd : BitVec 4} {f : Activation → Word} {x : Applet} {t : Activation} {cost : Nat} {d : Dev}
    (hpc : t.pc + 1 < x.code.length) :
    toReg a rd f x { t with fuel := t.fuel - cost } (charged a cost t d)
      = actAfter a (ran t cost (t.pc + 1) (setAt t.regs rd.toNat (f { t with fuel := t.fuel - cost }))) d := by
  rw [toReg, goTo_in hpc, setAct_charged]
  rfl

/-- A store that falls through inside the code, after the charge. -/
theorem toData_charged {a : AppletRef} {f : Applet → Activation → List Word} {x : Applet} {t : Activation} {cost : Nat} {d : Dev}
    (hpc : t.pc + 1 < x.code.length) :
    toData a f x { t with fuel := t.fuel - cost } (charged a cost t d)
      = dataAfter a (ran t cost (t.pc + 1) t.regs) (f x { t with fuel := t.fuel - cost }) d := by
  rw [toData, if_pos hpc, modData_setAct_charged]
  rfl

end Sys2Proof.Machine
end

section
/-! PROOFS. Loads and stores of words and bytes of data memory (R5, R656-R659). -/
namespace Sys2Proof.Machine

/-- The address a load or store computes, which the charge of its fuel does not change. -/
theorem charged_addr (t : Activation) (fuel : Nat) (ra : BitVec 4) (imm : BitVec 10) :
    (reg { t with fuel := fuel } ra + sext10 imm).toNat = memAddr t ra imm := by
  rw [sext10_add]
  rfl

theorem getByte_eq_byteAt (data : List Word) (n : Nat) : getByte data n = byteAt data n := getByte_eq data n

/-- A byte stored inside data memory reads back, and every other byte of data memory reads as before. -/
theorem byteAt_putBytes_singleton {data : List Word} {n m : Nat} (b : Byte) (hn : n < 6 * data.length) (hm : m < 6 * data.length) :
    byteAt (putBytes data n [b]) m = if m = n then b else byteAt data m :=
  byte_putBytes data n m b hn hm

section MemoryInstructions

variable {a : AppletRef} {rd ra : BitVec 4} {imm : BitVec 10} {s : State} {x : Applet} {t : Activation}

theorem exec_ld_inData (h : atInstr a (.ld rd ra imm) 1 x t s.dev) (haddr : memAddr t ra imm < x.data.length)
    (hpc : t.pc + 1 < x.code.length) :
    exec (.ld a rd ra imm) s = .next { s with
      dev := actAfter a (ran t 1 (t.pc + 1) (setAt t.regs rd.toNat (wd x.data (memAddr t ra imm)))) s.dev } := by
  change execLd a rd ra imm s = _
  rw [execLd, appletInstr_atInstr h]
  simp only [charged_addr, if_pos haddr, toReg_charged hpc]

theorem exec_st_inData (h : atInstr a (.st rd ra imm) 1 x t s.dev) (haddr : memAddr t ra imm < x.data.length)
    (hpc : t.pc + 1 < x.code.length) :
    exec (.st a rd ra imm) s = .next { s with
      dev := dataAfter a (ran t 1 (t.pc + 1) t.regs) (setAt x.data (memAddr t ra imm) (reg t rd)) s.dev } := by
  change execSt a rd ra imm s = _
  rw [execSt, appletInstr_atInstr h]
  simp only [charged_addr, if_pos haddr, toData_charged hpc]
  rfl

theorem exec_ldb_inData (h : atInstr a (.ldb rd ra imm) 1 x t s.dev) (haddr : memAddr t ra imm < 6 * x.data.length)
    (hpc : t.pc + 1 < x.code.length) :
    exec (.ldb a rd ra imm) s = .next { s with
      dev := actAfter a (ran t 1 (t.pc + 1) (setAt t.regs rd.toNat ((byteAt x.data (memAddr t ra imm)).setWidth 48))) s.dev } := by
  change execLdb a rd ra imm s = _
  rw [execLdb, appletInstr_atInstr h]
  simp only [charged_addr, if_pos haddr, toReg_charged hpc, getByte_eq_byteAt]

theorem exec_stb_inData (h : atInstr a (.stb rd ra imm) 1 x t s.dev) (haddr : memAddr t ra imm < 6 * x.data.length)
    (hpc : t.pc + 1 < x.code.length) :
    exec (.stb a rd ra imm) s = .next { s with
      dev := dataAfter a (ran t 1 (t.pc + 1) t.regs) (putBytes x.data (memAddr t ra imm) [(reg t rd).setWidth 8]) s.dev } := by
  change execStb a rd ra imm s = _
  rw [execStb, appletInstr_atInstr h]
  simp only [charged_addr, if_pos haddr, toData_charged hpc]
  rfl

end MemoryInstructions

/-- Settles O41: LD, ST and LDB by their equations; for STB the data memory is the old one with one byte put. -/
theorem appletMemoryInstructions : Obligations.AppletMemoryInstructions := by
  intro a rd ra imm
  refine ⟨fun s x t => exec_ld_inData, fun s x t => exec_st_inData, fun s x t => exec_ldb_inData, ?_⟩
  intro s x t h haddr hpc
  exact ⟨putBytes x.data (memAddr t ra imm) [(reg t rd).setWidth 8], exec_stb_inData h haddr hpc, putBytes_length _ _ _,
    fun n hn => byteAt_putBytes_singleton _ haddr hn⟩

end Sys2Proof.Machine
end

section
/-! PROOFS. Events: from what a row's meaning makes of the device to the event's statement. -/
namespace Sys2Proof.Machine

/-- A row that touches the device only happens as its meaning says of every device that meets the condition. -/
theorem happens_of_lift {c : Instr} {pre : Dev → Bool} {f g : Dev → Dev} (hexec : ∀ s, exec c s = lift g s)
    (hdev : ∀ d, pre d = true → g d = f d) : Happens c pre f := by
  intro s h
  rw [hexec, lift, hdev _ h]

/-- What a row that may restart the device answers, from the device and the restart that its meaning gives. -/
theorem exec_of_liftR {c : Instr} {s : State} {g : Dev → Dev × Bool} {p : Dev × Bool} (hexec : exec c s = liftR g s)
    (hdev : g s.dev = p) : exec c s = .next { s with dev := p.1, flow := if p.2 then {} else s.flow } := by
  rw [hexec, liftR, hdev]

/-- Such a row without a restart. -/
theorem happens_of_liftR {c : Instr} {pre : Dev → Bool} {f : Dev → Dev} {g : Dev → Dev × Bool} (hexec : ∀ s, exec c s = liftR g s)
    (hdev : ∀ d, pre d = true → g d = (f d, false)) : Happens c pre f :=
  fun s h => exec_of_liftR (hexec s) (hdev _ h)

/-- Such a row with its restart. -/
theorem restarts_of_liftR {c : Instr} {pre : Dev → Bool} {f : Dev → Dev} {g : Dev → Dev × Bool} (hexec : ∀ s, exec c s = liftR g s)
    (hdev : ∀ d, pre d = true → g d = (f d, true)) : Restarts c pre f :=
  fun s h => exec_of_liftR (hexec s) (hdev _ h)

end Sys2Proof.Machine
end

section
/-! PROOFS. The legal tick, the clock checks, checkpoints, the bucket and alarms (R67-R75, R78, R103, R118). -/
namespace Sys2Proof.Machine

/-- A tick from the crystal moves the counter alone, a tick from RC its cycles, phase and quality as well. -/
theorem tickAdvances : TickAdvances := by
  refine happens_of_lift (fun s => (rfl : exec _ s = execLegalTick s)) fun d h => ?_
  have hsupply : d.power.state ≠ .off := by simpa using h
  rw [if_neg hsupply]
  cases hrc : d.time.onRc with
  | true => simp only [hrc, if_true]; rfl
  | false => simp only [hrc, Bool.false_eq_true, if_false]; rfl

/-- The states in which the checks run have a supply. -/
theorem supplied_of_clockChecked {d : Dev} (h : clockChecked d = true) : d.power.state ≠ .off := by
  intro hoff
  simp [clockChecked, hoff] at h

/-- In the powered states every check that reports is judged by its window (R68). -/
theorem clockCheck_judges (c : ClockResult) : Happens (.clockCheck c) clockChecked (fun d => judgeClock { d with time := { d.time with
    stopped := (c.oscillates.map (fun b => !b)).getD d.time.stopped
    c1Count := c.c1.getD d.time.c1Count
    c1Ok := (c.c1.map c1Passes).getD d.time.c1Ok
    c2Ok := (c.c2.map c2Passes).getD d.time.c2Ok
    c3Ok := (c.c3.map c3Passes).getD d.time.c3Ok } }) := by
  refine happens_of_lift (fun s => (rfl : exec _ s = execClockCheck c s)) fun d h => ?_
  rw [if_neg (supplied_of_clockChecked h)]
  simp [h]

/-- In the other states with a supply the stop detector alone works (R73). -/
theorem clockCheck_stops (c : ClockResult) (hc : c.oscillates = some false) :
    Happens (.clockCheck c) (fun d => d.power.state != .off && !clockChecked d)
      (fun d => judgeClock { d with time := { d.time with stopped := true } }) := by
  refine happens_of_lift (fun s => (rfl : exec _ s = execClockCheck c s)) fun d h => ?_
  obtain ⟨hsupply, hunchecked⟩ : d.power.state ≠ .off ∧ clockChecked d = false := by simpa using h
  rw [if_neg hsupply]
  simp [hunchecked, hc]

theorem crystalStop_judges : Happens .crystalStop (fun d => d.power.state != .off)
    (fun d => judgeClock { d with time := { d.time with stopped := true } }) := by
  refine happens_of_lift (fun s => (rfl : exec _ s = execCrystalStop s)) fun d h => ?_
  have hsupply : d.power.state ≠ .off := by simpa using h
  rw [if_neg hsupply]

/-- 512 ticks of passed checks bring the tick source back to the crystal (R72). -/
theorem crystalReturn_leavesRc : Happens .crystalReturn
    (fun d => clockChecked d && d.time.onRc && !d.time.stopped && d.time.passSince.any (fun t => decide (t + 512 ≤ d.now)))
    (fun d => { d with time := { d.time with onRc := false, rcPhase := 0 } }) := by
  refine happens_of_lift (fun s => (rfl : exec _ s = execCrystalReturn s)) fun d h => ?_
  cases hpass : d.time.passSince with
  | none => simp [hpass] at h
  | some t =>
    rw [hpass] at h
    exact if_pos h

/-- A checkpoint that is written goes into the next two rows (R75). -/
theorem tickCheckpoint_written : Happens (.tickCheckpoint true)
    (fun d => d.boot.running && decide (d.time.ckptAt < ckptIndex d.now) && !d.power.pfn && d.time.ckptDue.all (fun t => decide (t ≤ d.now)))
    (fun d => { d with time := { writeCheckpoint { value := (d.now / 2 ^ 22 + 1) * 2 ^ 22, pulses := d.dist.pulses.toNat } d.time with
      ckptAt := ckptIndex d.now, ckptDue := none, ckptFirst := none, ckptFault := false } }) := by
  refine happens_of_lift (fun s => (rfl : exec _ s = execTickCheckpoint true s)) fun d h => ?_
  simp only [Bool.and_eq_true, decide_eq_true_eq, Bool.not_eq_true'] at h
  obtain ⟨⟨⟨hrun, hlate⟩, hpfn⟩, hdue⟩ := h
  have hnotDue : (d.time.ckptDue.map (fun x => decide (d.now < x))).getD false = false := by
    cases hd : d.time.ckptDue with
    | none => rfl
    | some t => simpa [hd] using hdue
  simp [hrun, hpfn, hnotDue, Nat.not_le.2 hlate]

/-- A first failed attempt waits 4,096 ticks for the next and raises nothing yet. -/
theorem tickCheckpoint_fails : Happens (.tickCheckpoint false)
    (fun d => d.boot.running && decide (d.time.ckptAt < ckptIndex d.now) && d.time.ckptFirst.isNone && d.time.ckptDue.isNone)
    (fun d => { d with time := { d.time with ckptFirst := some d.now, ckptDue := some (d.now + 4096) } }) := by
  refine happens_of_lift (fun s => (rfl : exec _ s = execTickCheckpoint false s)) fun d h => ?_
  simp only [Bool.and_eq_true, decide_eq_true_eq, Option.isNone_iff_eq_none] at h
  obtain ⟨⟨⟨hrun, hlate⟩, hfirst⟩, hdue⟩ := h
  have hearly : decide (d.now + 2 ^ 20 ≤ d.now) = false := decide_eq_false (by omega)
  simp only [hrun, hfirst, hdue, hearly, Nat.not_le.2 hlate, Option.map_none, Option.getD_none, decide_false, Bool.not_true,
    Bool.or_self, Bool.or_false, Bool.false_and, Bool.false_eq_true, if_false]

theorem bucketRefill_fills : Happens .bucketRefill (fun d => decide (d.time.bucketAt < d.now / 512)) (fun d => { d with time := { d.time with
    bucket := min 256 (d.time.bucket + (d.now / 512 - d.time.bucketAt)), bucketAt := d.now / 512 } }) := by
  refine happens_of_lift (fun s => (rfl : exec _ s = execBucketRefill s)) fun d h => ?_
  exact if_pos (of_decide_eq_true h)

/-- A tenant's alarm fires on a device that it wakes first (R118). -/
theorem fireAlarm_eq (t : Byte) (d : Dev) :
    fireAlarm t d = attnBoth Attn.tickAlarm { awake d with time := { d.time with
      alarms := d.time.alarms.filter (fun a => a.1 != t), fired := if d.time.fired.contains t then d.time.fired else d.time.fired ++ [t] } } := by
  by_cases hstandby : d.power.state = .standby
  · simp only [fireAlarm, awake, if_pos hstandby]
  · simp only [fireAlarm, awake, if_neg hstandby]

theorem tickAlarm_fires (t : Byte) :
    Happens (.tickAlarm t) (fun d => d.boot.running && d.time.alarms.any (fun a => a.1 == t && decide (a.2 ≤ d.now)))
      (fun d => attnBoth Attn.tickAlarm { awake d with time := { d.time with
        alarms := d.time.alarms.filter (fun a => a.1 != t), fired := if d.time.fired.contains t then d.time.fired else d.time.fired ++ [t] } }) := by
  refine happens_of_lift (fun s => (rfl : exec _ s = execTickAlarm t s)) fun d h => ?_
  rw [← fireAlarm_eq]
  exact if_pos h

/-- Settles O30, a clause a row: each row's condition picks the branch of its meaning. -/
theorem clockEventsHappen : Obligations.ClockEventsHappen :=
  ⟨tickAdvances, clockCheck_judges, clockCheck_stops, crystalStop_judges, crystalReturn_leavesRc, tickCheckpoint_written,
    tickCheckpoint_fails, bucketRefill_fills, tickAlarm_fires⟩

end Sys2Proof.Machine
end

section
/-! PROOFS. Tamper sources confirm, clear and are held; responses run; fuses are sensed again (R20, R136-R138, R476-R505, R509). -/
namespace Sys2Proof.Machine

/-- The device that a confirmation finds once its source is confirmed; FLASH withholds the outputs in progress (R480). -/
def hit (src : Nat) (value : BitVec 24) (d : Dev) : Dev :=
  if src = 16 then flashRetry (confirmed src value d) else confirmed src value d

theorem hit_flash (value : BitVec 24) (d : Dev) : hit 16 value d = flashRetry (confirmed 16 value d) := rfl

theorem hit_of_ne {src : Nat} (value : BitVec 24) (d : Dev) (h : src ≠ 16) : hit src value d = confirmed src value d := if_neg h

@[simp] theorem hit_lifecycle (src : Nat) (value : BitVec 24) (d : Dev) : (hit src value d).lifecycle = d.lifecycle := by
  unfold hit; split <;> rfl

/-- What an enabled source's confirmation does: BLANK sets the management cause alone, a source that has been responded to is only
noted, VDD under-voltage is held, any other is taken (R20, R476, R479, R499). -/
theorem confirmSource_enabled {s : Nat} {v : BitVec 24} {d : Dev} (h : srcDisabled d s = false) :
    confirmSource s v 0 d =
      if d.lifecycle = .blank then alertBit Alert.tamper (hit s v d)
      else if (srcState d s).responded && !isEvent s then hit s v d
      else if s = 20 then { hit s v d with tamper := { (hit s v d).tamper with underHold := some (confirmationOf s v d) } }
      else takeConfirmation (confirmationOf s v d) (hit s v d) := by
  rw [← hit_lifecycle s v d]
  simp only [confirmSource, h, Bool.false_eq_true, if_false, Nat.zero_add]
  rfl

theorem confirmSource_blank {s : Nat} {v : BitVec 24} {d : Dev} (hon : srcDisabled d s = false) (hblank : d.lifecycle = .blank) :
    confirmSource s v 0 d = alertBit Alert.tamper (hit s v d) := by
  rw [confirmSource_enabled hon, if_pos hblank]

/-- A first confirmation since the last response, past BLANK, of any source but the held one. -/
theorem confirmSource_taken {s : Nat} {v : BitVec 24} {d : Dev} (hon : srcDisabled d s = false) (hpast : d.lifecycle ≠ .blank)
    (hfirst : ((srcState d s).responded && !isEvent s) = false) (hs : s ≠ 20) :
    confirmSource s v 0 d = takeConfirmation (confirmationOf s v d) (hit s v d) := by
  rw [confirmSource_enabled hon, if_neg hpast, hfirst, if_neg Bool.false_ne_true, if_neg hs]

theorem confirmSource_answersNow {s : Nat} {v : BitVec 24} {d : Dev} (h : answersNow s d = true) :
    confirmSource s v 0 d = takeConfirmation (confirmationOf s v d) (confirmed s v d) := by
  simp only [answersNow, Bool.and_eq_true, Bool.not_eq_true', bne_iff_ne] at h
  obtain ⟨⟨⟨⟨⟨hon, hwatched⟩, hpast⟩, hfirst⟩, hflash⟩, hunder⟩ := h
  have hfirst' : ((srcState d s).responded && !isEvent s) = false := by
    cases he : isEvent s <;> simp_all
  rw [confirmSource_taken hon hpast hfirst' hunder, hit_of_ne v d hflash]

theorem watched_of_answersNow {s : Nat} {d : Dev} (h : answersNow s d = true) : watched d s = true := by
  simp only [answersNow, Bool.and_eq_true] at h
  obtain ⟨⟨⟨⟨⟨-, hwatched⟩, -⟩, -⟩, -⟩, -⟩ := h
  exact hwatched

/-- SEC runs: the confirmation is answered. -/
theorem takeConfirmation_running {x : Latch} {d : Dev} (h : d.boot.running = true) : takeConfirmation x d = answer x d := by
  simp [takeConfirmation, latchesOnly, h]

/-- SEC does not run: the confirmation is latched. -/
theorem takeConfirmation_rom {x : Latch} {d : Dev} (h : d.boot.running = false) : takeConfirmation x d = latchSource x d := by
  simp [takeConfirmation, latchesOnly, h]

/-- A sampled source that is watched and clear is confirmed with its sensed value. -/
theorem senseAlarm_clear {s : Nat} {v : BitVec 24} {d : Dev} (hevent : isEvent s = false) (hclear : (srcState d s).confirmed = false)
    (hwatched : watched d s = true) : senseAlarm s v d = confirmSource s (sensedValue s v) 0 d := by
  simp [senseAlarm, hevent, hclear, hwatched]

theorem senseAlarm_answersNow {s : Nat} {v : BitVec 24} {d : Dev} (hevent : isEvent s = false)
    (hclear : (srcState d s).confirmed = false) (h : answersNow s d = true) :
    senseAlarm s v d = takeConfirmation (confirmationOf s (sensedValue s v) d) (confirmed s (sensedValue s v) d) := by
  rw [senseAlarm_clear hevent hclear (watched_of_answersNow h), confirmSource_answersNow h]

/-- FLASH is an event source. -/
theorem ne_flash_of_sampled {s : Nat} (h : isEvent s = false) : s ≠ 16 := by
  rintro rfl; cases h

/-- An event source but FLASH reports its value as it is. -/
theorem sensedValue_event {s : Nat} {v : BitVec 24} (hevent : isEvent s = true) (hflash : s ≠ 16) : sensedValue s v = v := by
  simp only [isEvent, Bool.or_eq_true, beq_iff_eq] at hevent
  rw [sensedValue, if_neg (by omega), if_neg (by omega)]

theorem ne_flash_of_answersNow {s : Nat} {d : Dev} (h : answersNow s d = true) : s ≠ 16 := by
  rintro rfl
  simp [answersNow] at h

/-- With firmware running a sampled source is answered at once (R487). -/
theorem senseAlarm_running {s : Nat} {v : BitVec 24} {d : Dev}
    (h : (!isEvent s && !(srcState d s).confirmed && answersNow s d && d.boot.running) = true) :
    senseAlarm s v d = answer (confirmationOf s (sensedValue s v) d) (confirmed s (sensedValue s v) d) := by
  simp only [Bool.and_eq_true, Bool.not_eq_true'] at h
  obtain ⟨⟨⟨hevent, hclear⟩, hnow⟩, hrun⟩ := h
  rw [senseAlarm_answersNow hevent hclear hnow]
  exact takeConfirmation_running hrun

theorem tamperConfirm_running (src : Source) (v : BitVec 24) : Happens (.tamperConfirm src v)
    (fun d => !isEvent src.val && !(srcState d src.val).confirmed && answersNow src.val d && d.boot.running)
    (fun d => answer (confirmationOf src.val (sensedValue src.val v) d) (confirmed src.val (sensedValue src.val v) d)) :=
  happens_of_lift (fun s => (rfl : exec _ s = execTamperConfirm src v s)) fun _ => senseAlarm_running

/-- While the boot ROM runs it is latched (R501). -/
theorem tamperConfirm_rom (src : Source) (v : BitVec 24) : Happens (.tamperConfirm src v)
    (fun d => !isEvent src.val && !(srcState d src.val).confirmed && answersNow src.val d && !d.boot.running)
    (fun d => latchSource (confirmationOf src.val (sensedValue src.val v) d) (confirmed src.val (sensedValue src.val v) d)) := by
  refine happens_of_lift (fun s => (rfl : exec _ s = execTamperConfirm src v s)) fun d h => ?_
  simp only [Bool.and_eq_true, Bool.not_eq_true'] at h
  obtain ⟨⟨⟨hevent, hclear⟩, hnow⟩, hrom⟩ := h
  rw [senseAlarm_answersNow hevent hclear hnow]
  exact takeConfirmation_rom hrom

theorem tamperConfirm_blank (src : Source) (v : BitVec 24) : Happens (.tamperConfirm src v)
    (fun d => !isEvent src.val && !(srcState d src.val).confirmed && watched d src.val && !srcDisabled d src.val && d.lifecycle == .blank)
    (fun d => alertBit Alert.tamper (confirmed src.val (sensedValue src.val v) d)) := by
  refine happens_of_lift (fun s => (rfl : exec _ s = execTamperConfirm src v s)) fun d h => ?_
  simp only [Bool.and_eq_true, Bool.not_eq_true', beq_iff_eq] at h
  obtain ⟨⟨⟨⟨hevent, hclear⟩, hwatched⟩, hon⟩, hblank⟩ := h
  rw [senseAlarm_clear hevent hclear hwatched, confirmSource_blank hon hblank, hit_of_ne _ d (ne_flash_of_sampled hevent)]

/-- A VDD under-voltage is held first, whatever runs (R479). -/
theorem tamperConfirm_vddUnder (src : Source) (v : BitVec 24) : Happens (.tamperConfirm src v)
    (fun d => src.val == 20 && !(srcState d src.val).confirmed && watched d src.val
      && !srcDisabled d src.val && d.lifecycle != .blank && !(srcState d src.val).responded)
    (fun d => { confirmed src.val v d with tamper := { (confirmed src.val v d).tamper with underHold := some (confirmationOf src.val v d) } }) := by
  refine happens_of_lift (fun s => (rfl : exec _ s = execTamperConfirm src v s)) fun d h => ?_
  simp only [Bool.and_eq_true, Bool.not_eq_true', beq_iff_eq, bne_iff_ne] at h
  obtain ⟨⟨⟨⟨⟨hsrc, hclear⟩, hwatched⟩, hon⟩, hpast⟩, hfirst⟩ := h
  rw [hsrc] at hclear hwatched hon hfirst ⊢
  rw [senseAlarm_clear rfl hclear hwatched, confirmSource_enabled hon, if_neg hpast, hfirst]
  rfl

/-- An event of a source but FLASH is answered at once (R477). -/
theorem tamperEvent_running (src : Source) (v : BitVec 24) : Happens (.tamperEvent src v)
    (fun d => isEvent src.val && answersNow src.val d && d.boot.running)
    (fun d => answer (confirmationOf src.val v d) (confirmed src.val v d)) := by
  refine happens_of_lift (fun s => (rfl : exec _ s = execTamperEvent src v s)) fun d h => ?_
  simp only [Bool.and_eq_true] at h
  obtain ⟨⟨hevent, hnow⟩, hrun⟩ := h
  have hseen : (isEvent src.val && watched d src.val) = true := by rw [hevent, watched_of_answersNow hnow]; rfl
  rw [if_pos hseen, sensedValue_event hevent (ne_flash_of_answersNow hnow), confirmSource_answersNow hnow]
  exact takeConfirmation_running hrun

/-- FLASH has what it hit retried (R480). -/
theorem tamperEvent_flash (src : Source) (v : BitVec 24) : Happens (.tamperEvent src v)
    (fun d => src.val == 16 && watched d 16 && !srcDisabled d 16 && d.lifecycle != .blank && d.boot.running)
    (fun d => answer (confirmationOf 16 1 d) (flashRetry (confirmed 16 1 d))) := by
  refine happens_of_lift (fun s => (rfl : exec _ s = execTamperEvent src v s)) fun d h => ?_
  simp only [Bool.and_eq_true, Bool.not_eq_true', beq_iff_eq, bne_iff_ne] at h
  obtain ⟨⟨⟨⟨hsrc, hwatched⟩, hon⟩, hpast⟩, hrun⟩ := h
  have hfirst : ((srcState d 16).responded && !isEvent 16) = false := Bool.and_false _
  rw [hsrc]
  change (if watched d 16 = true then confirmSource 16 1 0 d else d) = _
  rw [if_pos hwatched, confirmSource_taken hon hpast hfirst (by decide), hit_flash]
  exact takeConfirmation_running hrun

/-- After 64 ticks the held under-voltage is taken (R479). -/
theorem vddUnderHoldExpiry_takes (x : Latch) : Happens .vddUnderHoldExpiry
    (fun d => d.tamper.underHold == some x && decide (x.tick + 64 ≤ d.now))
    (fun d =>
      let y : Dev := { d with tamper := { d.tamper with underHold := none } }
      if d.boot.running then answer x y else latchSource x y) := by
  refine happens_of_lift (fun s => (rfl : exec _ s = execVddUnderHoldExpiry s)) fun d h => ?_
  simp only [Bool.and_eq_true, beq_iff_eq, decide_eq_true_eq] at h
  obtain ⟨hheld, hover⟩ := h
  rw [hheld]
  dsimp only
  rw [if_pos hover]
  cases hrun : d.boot.running with
  | true => exact takeConfirmation_running hrun
  | false => exact takeConfirmation_rom hrun

/-- A response sequence runs to its restart, or VDD is lost in it (R491, log 50). -/
theorem tamperResponseSequence_runs (fuse : FuseEnd) (l : Nat) : Restarts (.tamperResponseSequence fuse false)
    (fun d => d.tamper.response == some l) (fun d => runResponse l fuse (finishWrites d)) := by
  refine restarts_of_liftR (fun s => (rfl : exec _ s = execTamperResponseSequence fuse false s)) fun d h => ?_
  rw [eq_of_beq h]
  rfl

theorem tamperResponseSequence_cut (fuse : FuseEnd) (l : Nat) : Restarts (.tamperResponseSequence fuse true)
    (fun d => d.tamper.response == some l) (fun d => enterBackup (finishWrites d)) := by
  refine restarts_of_liftR (fun s => (rfl : exec _ s = execTamperResponseSequence fuse true s)) fun d h => ?_
  rw [eq_of_beq h]
  rfl

/-- While the boot ROM runs a latched response is the restart of R162. -/
theorem tamperResponseSequence_rom (fuse : FuseEnd) (cut : Bool) (l : Nat) : Restarts (.tamperResponseSequence fuse cut)
    (fun d => d.tamper.response.isNone && d.power.state == .active && !d.boot.running && latchedResponse d == some l)
    (restart 5 (if l = 3 then Cause.tamperL3 else Cause.tamperL2)) := by
  refine restarts_of_liftR (fun s => (rfl : exec _ s = execTamperResponseSequence fuse cut s)) fun d h => ?_
  simp only [Bool.and_eq_true, Option.isNone_iff_eq_none, beq_iff_eq, Bool.not_eq_true'] at h
  obtain ⟨⟨⟨hnone, hactive⟩, hrom⟩, hlatched⟩ := h
  simp [hnone, hactive, hrom, hlatched]

/-- Inside its band the temperature alone is noted (R136). -/
theorem fuseResense_inBand (temp : Int) (reads : List FuseRead) : Happens (.fuseResense temp reads)
    (fun d => resenses d && bandsAt d.fuse.above temp == d.fuse.above) (setTemp temp) := by
  refine happens_of_liftR (fun s => (rfl : exec _ s = execFuseResense temp reads s)) fun d h => ?_
  simp only [Bool.and_eq_true, beq_iff_eq] at h
  obtain ⟨hsenses, hband⟩ := h
  simp [hsenses, hband]

/-- The device that senses its fuses at a new band. -/
def atBand (temp : Int) (d : Dev) : Dev := setTemp temp { d with fuse := { d.fuse with above := bandsAt d.fuse.above temp } }

/-- The words that read otherwise there than the shadow has them. -/
def driftsAt (temp : Int) (reads : List FuseRead) (d : Dev) : List Nat := drifted (atBand temp d) (senseAll (atBand temp d) reads)

/-- The device with the shadow kept and trace point 88 written (R137). -/
def resensedAt (temp : Int) (reads : List FuseRead) (d : Dev) : Dev :=
  logAt Core.sec 88 (word (Config.unstated 88 [])) (word (driftsAt temp reads d).length) false
    (keepShadow (senseAll (atBand temp d) reads) (atBand temp d))

/-- The device after its one drift event, in the state that the drift moves it to (R137, R138). -/
def afterDrift (old : Lifecycle) (i : Nat) (d : Dev) : Dev :=
  driftState old (if old.code < d.lifecycle.code then driftFirst (tamperEvent Src.drift i d) else tamperEvent Src.drift i d)

section Crossing

variable {temp : Int} {reads : List FuseRead} {s : State}

/-- A re-sense that finds every word as the shadow has it. -/
theorem fuseResense_sameWords (hsenses : resenses s.dev = true) (hcross : bandsAt s.dev.fuse.above temp ≠ s.dev.fuse.above)
    (hsame : driftsAt temp reads s.dev = []) : exec (.fuseResense temp reads) s = .next { s with dev := resensedAt temp reads s.dev } := by
  refine exec_of_liftR (p := (resensedAt temp reads s.dev, false)) (rfl : exec _ s = execFuseResense temp reads s) ?_
  rw [resensedAt, hsame]
  unfold driftsAt atBand at hsame
  simp only [hsenses, bne_iff_ne.2 hcross, hsame, Bool.not_true, Bool.false_eq_true, if_false]
  rfl

/-- A re-sense that finds a word drifted; a state outside the mode matrix that it brings about restarts the device (R30). -/
theorem fuseResense_drifts {i : Nat} {is : List Nat} {w : Dev} (hsenses : resenses s.dev = true)
    (hcross : bandsAt s.dev.fuse.above temp ≠ s.dev.fuse.above) (hdrift : driftsAt temp reads s.dev = i :: is)
    (hw : afterDrift (atBand temp s.dev).lifecycle i (resensedAt temp reads s.dev) = w) :
    exec (.fuseResense temp reads) s =
      .next (if w.boot.running && outsideMatrix w then { s with dev := matrixFault w, flow := {} } else { s with dev := w }) := by
  have hexec : exec (.fuseResense temp reads) s = _ := exec_of_liftR
    (p := if w.boot.running && outsideMatrix w then (matrixFault w, true) else (w, false))
    (rfl : exec _ s = execFuseResense temp reads s) (by
      rw [← hw, afterDrift, resensedAt, hdrift]
      unfold driftsAt atBand at hdrift
      simp only [hsenses, bne_iff_ne.2 hcross, hdrift, Bool.not_true, Bool.false_eq_true, if_false, decide_eq_true_eq]
      rfl)
  rw [hexec]
  by_cases hmatrix : (w.boot.running && outsideMatrix w) = true
  · rw [if_pos hmatrix, if_pos hmatrix]; rfl
  · rw [if_neg hmatrix, if_neg hmatrix]; rfl

end Crossing

/-- Settles O36: a confirmation by the one equation of `confirmSource`, a re-sense by the list of drifted words. -/
theorem tamperEventsHappen : Obligations.TamperEventsHappen := by
  refine ⟨tamperConfirm_running, tamperConfirm_rom, tamperConfirm_blank, tamperConfirm_vddUnder, tamperEvent_running, tamperEvent_flash,
    ?clear, vddUnderHoldExpiry_takes, ?holdEnd, ?selfCheck, tamperResponseSequence_runs, tamperResponseSequence_cut,
    tamperResponseSequence_rom, fuseResense_inBand, ?crossing⟩
  case clear => exact fun src => happens_of_lift (fun s => (rfl : exec _ s = execTamperClear src s)) fun _ _ => rfl
  case holdEnd =>
    exact happens_of_lift (fun s => (rfl : exec _ s = execTamperHoldEnd s)) fun _ h => if_pos (of_decide_eq_true h)
  case selfCheck =>
    exact fun src v => happens_of_lift (fun s => (rfl : exec _ s = execSensorSelfCheck [(src, v)] s)) fun _ => senseAlarm_running
  case crossing =>
    intro temp reads s hsenses hcross x rs y
    split
    next hsame => exact fuseResense_sameWords hsenses hcross hsame
    next i is hdrift => exact fuseResense_drifts hsenses hcross hdrift rfl

end Sys2Proof.Machine
end

section
/-! PROOFS. A due pattern switches, a handover reaches its seam, is adopted, fails or waits, an outgoing succession lapses
(R17, R551, R552, R566, R591-R597, R646, R724). -/
namespace Sys2Proof.Machine

/-- A due pattern is adopted at or after its K1 (R551, R552). -/
theorem patternSwitch_adopts (x : SwitchDue) : Happens .patternSwitch
    (fun d => d.pat.due == some x && decide (x.k1 ≤ d.now) && d.boot.running)
    (fun d =>
      let b := bank d x.inB
      let y := logAt Core.sch 23 (word x.gen) (word x.k1) false (adopt b.image x.gen x.k1 x.inB d)
      let z := attnBoth Attn.pattern (patternRecord x.gen d.pat.gen (flag x.revert) x.k1 b.digest y)
      match x.req with
      | some r => heldOutcome z (complete r St.ok ([mkWord [(47, 24, x.gen)], word x.k1] ++ bytesWords b.digest) 60 z)
      | none => z) := by
  refine happens_of_lift (fun s => (rfl : exec _ s = execPatternSwitch s)) fun d h => ?_
  simp only [Bool.and_eq_true, beq_iff_eq, decide_eq_true_eq] at h
  obtain ⟨⟨hdue, hk1⟩, hrun⟩ := h
  have hgo : ¬ (decide (d.now < x.k1) || !d.boot.running) = true := by simp [hrun, hk1]
  rw [hdue]
  refine (if_neg hgo).trans ?_
  cases x.req <;> rfl

/-- A handover without a tamper response due passes its seam point with its record (R17, R591, R595). -/
theorem handoverSeamPoint_passes (h : HandoverState) : Happens .handoverSeamPoint
    (fun d => d.fw.handover == some h && h.phase == 2 && !responseDue d)
    (fun d => toPhase 4 (toPhase 3 { d with fw := { d.fw with
      handover := some { h with seamTick := d.now, record := handoverRecord d h } } })) := by
  refine happens_of_lift (fun s => (rfl : exec _ s = execHandoverSeamPoint s)) fun d hpre => ?_
  simp only [Bool.and_eq_true, beq_iff_eq, Bool.not_eq_true'] at hpre
  obtain ⟨⟨hover, hphase⟩, hnone⟩ := hpre
  simp [hover, hphase, hnone]

/-- The row leaves the device d, in which a power-state request that waited takes effect. -/
def Settles (c : Instr) (s : State) (d : Dev) : Prop :=
  exec c s = .next { s with dev := (settlePower d).1, flow := if (settlePower d).2 then {} else s.flow }

theorem settles_of_liftR {c : Instr} {s : State} {g : Dev → Dev × Bool} {d : Dev} (hexec : exec c s = liftR g s)
    (hdev : g s.dev = settlePower d) : Settles c s d :=
  exec_of_liftR hexec hdev

section Handover

variable {h : HandoverState} {s : State} {pause : Nat} {reason : Byte}

/-- No seam point within 50 ms (R591). -/
theorem handoverQuiesceTimeout_fails (hover : s.dev.fw.handover = some h) (hphase : h.phase = 2)
    (hlate : h.began + msTicks 50 ≤ s.dev.now) : Settles .handoverQuiesceTimeout s (failHandover 7 h s.dev) := by
  refine settles_of_liftR (rfl : exec _ s = execHandoverQuiesceTimeout s) ?_
  simp [hover, hphase, hlate]

/-- No adoption within 200 ms (R593). -/
theorem handoverMonitorTimeout_fails (hover : s.dev.fw.handover = some h) (hphase : h.phase = 4)
    (hlate : h.seamTick + msTicks 200 ≤ s.dev.now) : Settles .handoverMonitorTimeout s (failHandover 5 h s.dev) := by
  refine settles_of_liftR (rfl : exec _ s = execHandoverMonitorTimeout s) ?_
  simp [hover, hphase, hlate]

/-- In phase 4 with no response due the new image's report is taken: adopted without a reason and with a record that fits, failed
else (R594-R597). -/
theorem handoverAdoption_reports (hover : s.dev.fw.handover = some h) (hphase : h.phase = 4) (hnone : responseDue s.dev = false) :
    Settles (.handoverAdoption reason pause) s (if reason = 0 && recordFits h then adoptImage h pause s.dev
      else failHandover (if reason = 0 then 1 else reason.toNat) h s.dev) := by
  refine settles_of_liftR (rfl : exec _ s = execHandoverAdoption reason pause s) ?_
  simp only [hover, hphase, hnone, bne_self_eq_false, Bool.or_self, Bool.false_eq_true, if_false]

theorem handoverAdoption_adopts (hover : s.dev.fw.handover = some h) (hphase : h.phase = 4) (hnone : responseDue s.dev = false)
    (hfits : recordFits h = true) : Settles (.handoverAdoption 0 pause) s (adoptImage h pause s.dev) := by
  simpa [hfits] using handoverAdoption_reports (reason := 0) (pause := pause) hover hphase hnone

theorem handoverAdoption_misfits (hover : s.dev.fw.handover = some h) (hphase : h.phase = 4) (hnone : responseDue s.dev = false)
    (hmisfit : recordFits h = false) : Settles (.handoverAdoption 0 pause) s (failHandover 1 h s.dev) := by
  simpa [hmisfit] using handoverAdoption_reports (reason := 0) (pause := pause) hover hphase hnone

theorem handoverAdoption_refused (hover : s.dev.fw.handover = some h) (hphase : h.phase = 4) (hnone : responseDue s.dev = false)
    (hreason : reason ≠ 0) : Settles (.handoverAdoption reason pause) s (failHandover reason.toNat h s.dev) := by
  simpa only [hreason, decide_false, Bool.false_and, Bool.false_eq_true, if_false]
    using handoverAdoption_reports (reason := reason) (pause := pause) hover hphase hnone

/-- A tamper response that is due comes first (R17). -/
theorem handoverAdoption_waits (hdue : responseDue s.dev = true) : exec (.handoverAdoption reason pause) s = .next s := by
  refine (exec_of_liftR (p := (s.dev, false)) (rfl : exec _ s = execHandoverAdoption reason pause s) ?_).trans rfl
  cases s.dev.fw.handover with
  | none => rfl
  | some h => simp [hdue]

end Handover

/-- An outgoing succession that is not committed within 2^24 ticks aborts (R646). -/
theorem successionTimeout_aborts {s : State} (hout : s.dev.succ.state = 1) (hopen : s.dev.succ.committing = false)
    (hlate : s.dev.succ.began + 2 ^ 24 ≤ s.dev.now) : Settles .successionTimeout s (abortOutgoing s.dev) := by
  refine settles_of_liftR (rfl : exec _ s = execSuccessionTimeout s) ?_
  rw [if_pos (by simp only [hout, hopen, hlate]; rfl)]

/-- Settles O37, a clause a row; the three ends of an adoption are the branches of its one equation. -/
theorem updateEventsHappen : Obligations.UpdateEventsHappen :=
  ⟨patternSwitch_adopts, handoverSeamPoint_passes, fun _ _ => handoverQuiesceTimeout_fails, fun _ _ => handoverMonitorTimeout_fails,
    fun _ _ _ => handoverAdoption_adopts, fun _ _ _ => handoverAdoption_misfits, fun _ _ _ _ => handoverAdoption_refused,
    fun _ _ _ => handoverAdoption_waits, fun _ => successionTimeout_aborts⟩

end Sys2Proof.Machine
end

section
/-! PROOFS. Events: a statement about a row under a wider condition gives the statement under a narrower one. -/
namespace Sys2Proof.Machine

theorem Happens.narrow {c : Instr} {pre pre' : Dev → Bool} {f f' : Dev → Dev} (h : Happens c pre f)
    (hnarrow : ∀ d, pre' d = true → pre d = true ∧ f d = f' d) : Happens c pre' f' := by
  intro s hs
  obtain ⟨hpre, hdev⟩ := hnarrow _ hs
  rw [h s hpre, hdev]

theorem Restarts.narrow {c : Instr} {pre pre' : Dev → Bool} {f f' : Dev → Dev} (h : Restarts c pre f)
    (hnarrow : ∀ d, pre' d = true → pre d = true ∧ f d = f' d) : Restarts c pre' f' := by
  intro s hs
  obtain ⟨hpre, hdev⟩ := hnarrow _ hs
  rw [h s hpre, hdev]

end Sys2Proof.Machine
end

section
/-! PROOFS. What drives a pin: its rail, the boundary register, the device's logic (R32, R36, R181, R490, R688). -/
namespace Sys2Proof.Machine

theorem pinState_unpowered {s : State} {p : Pin} (hrail : groupLive s.dev p.group = false) : pinState s p = .z := by
  simp only [pinState, hrail, Bool.not_false, if_true]

/-- With its rail up and no scan instruction on it, a pin is the device's own. -/
theorem pinState_own {s : State} {p : Pin} (hrail : groupLive s.dev p.group = true)
    (hfree : (scanHoldsPorts s.dev && scanPins.contains p) = false) : pinState s p = logicDrive s p := by
  simp only [pinState, hrail, hfree, Bool.not_true, Bool.false_eq_true, if_false]

theorem pinState_unscanned {s : State} {p : Pin} (hrail : groupLive s.dev p.group = true) (hscan : scanHoldsPorts s.dev = false) :
    pinState s p = logicDrive s p :=
  pinState_own hrail (by rw [hscan, Bool.false_and])

/-- Before the ports' logic runs, only the three pins of the always-on logic and of the alert leave their state at reset. -/
theorem logicDrive_atReset {s : State} {p : Pin} (hquiet : s.dev.boot.progress = 0) (halert : p ≠ .mAlertN) (htamp : p ≠ .tampOut)
    (hmesh : ∀ i, p ≠ .meshOut i) : logicDrive s p = p.atReset := by
  cases p with
  | aAttnN => simp only [logicDrive, hquiet, bne_self_eq_false, Bool.false_eq_true, if_false]
  | bAttnN => simp only [logicDrive, hquiet, bne_self_eq_false, Bool.false_eq_true, if_false]
  | mAlertN => exact absurd rfl halert
  | tampOut => exact absurd rfl htamp
  | meshOut i => exact absurd rfl (hmesh i)
  | _ => rfl

/-- HIGHZ holds the ports. -/
theorem scanHoldsPorts_highz {d : Dev} (hir : d.dbg.ir = 0x04) : scanHoldsPorts d = true := by
  simp [scanHoldsPorts, hir]

theorem pinState_highz {s : State} {p : Pin} (hir : s.dev.dbg.ir = 0x04) (hp : p ∈ scanPins) : pinState s p = .z := by
  cases hrail : groupLive s.dev p.group with
  | false => exact pinState_unpowered hrail
  | true => simp [pinState, hrail, scanHoldsPorts_highz hir, hp, hir]

/-- On a port whose rail is up ATTN_N is high exactly when no unmasked cause is set (R181). -/
theorem attnHigh_eq {s : State} {p : Port} (hrail : portRail s.dev p = true) :
    (!attnLow s p) = ((attnCause s p &&& (s.dev.port p).mask) == 0) := by
  rw [attnLow, hrail, Bool.true_and, bne, Bool.not_not]

theorem pinState_aAttnN {s : State} (hrail : groupLive s.dev .a = true) (hscan : scanHoldsPorts s.dev = false)
    (hup : s.dev.boot.progress ≠ 0) : pinState s .aAttnN = .driven ((attnCause s .a &&& s.dev.portA.mask) == 0) := by
  rw [pinState_unscanned hrail hscan]
  exact (if_pos (bne_iff_ne.2 hup)).trans (congrArg PinState.driven (attnHigh_eq (p := .a) hrail))

theorem pinState_bAttnN {s : State} (hrail : groupLive s.dev .b = true) (hscan : scanHoldsPorts s.dev = false)
    (hup : s.dev.boot.progress ≠ 0) : pinState s .bAttnN = .driven ((attnCause s .b &&& s.dev.portB.mask) == 0) := by
  rw [pinState_unscanned hrail hscan]
  exact (if_pos (bne_iff_ne.2 hup)).trans (congrArg PinState.driven (attnHigh_eq (p := .b) hrail))

/-- TAMP_OUT is of the always-on group and is not scanned. -/
theorem pinState_tampOut {s : State} (hsupply : s.dev.power.state ≠ .off) : pinState s .tampOut = .driven (tampOut s.dev) := by
  refine pinState_own (p := .tampOut) (bne_iff_ne.2 hsupply) ?_
  have hnot : scanPins.contains Pin.tampOut = false := by decide
  rw [hnot, Bool.and_false]

/-- Settles O60, by who drives the pin: nobody without the rail, the boundary register under a scan instruction, else the device. -/
theorem pinsFollowTheirGroups : Obligations.PinsFollowTheirGroups :=
  ⟨fun _ _ => pinState_unpowered,
    fun _ _ hrail hscan hquiet halert htamp hmesh =>
      (pinState_unscanned hrail hscan).trans (logicDrive_atReset hquiet halert htamp hmesh),
    fun _ _ => pinState_highz, fun _ => pinState_aAttnN, fun _ => pinState_bAttnN, fun _ => pinState_tampOut⟩

end Sys2Proof.Machine
end

section
/-! PROOFS. Packets of the management port, its lockout and its bus timeout (R52, R63, R609, R612, R649). -/
namespace Sys2Proof.Machine

/-- A transaction that the port takes acts on the device it has woken (R52). -/
theorem happens_of_mgmtTouch {c : Instr} {pre : Dev → Bool} {f g : Dev → Dev} (hexec : ∀ s, exec c s = mgmtTouch g s)
    (hlive : ∀ d, pre d = true → mgmtLive d = true) (hdev : ∀ d, pre d = true → g (awake d) = f d) : Happens c pre f :=
  happens_of_lift hexec fun d h => (if_pos (hlive d h)).trans (hdev d h)

@[simp] theorem awake_mgmt (d : Dev) : (awake d).mgmt = d.mgmt := by
  unfold awake; split <;> rfl

/-- A read inside the reply moves its position on (R612). -/
theorem pktWindowRead_moves : Happens .pktWindowRead (fun d => mgmtLive d && decide (d.mgmt.readAt < (d.mgmt.reply.getD []).length))
    (fun d => { awake d with mgmt := { d.mgmt with taken := 0, readAt := d.mgmt.readAt + 1 } }) := by
  refine happens_of_mgmtTouch (fun s => (rfl : exec _ s = execPktWindowRead s)) (fun d h => (Bool.and_eq_true_iff.1 h).1) fun d h => ?_
  have hinside := of_decide_eq_true (Bool.and_eq_true_iff.1 h).2
  simp only [endTransaction, awake_mgmt, if_pos hinside]

/-- A lockout that has come to its end locks nothing out. -/
theorem mgmtLocked_over {d : Dev} (hover : d.mgmt.lockEnd.any (fun e => decide (e ≤ d.now)) = true) :
    (d.mgmt.lockEnd.isSome && !mgmtLocked d) = true := by
  unfold mgmtLocked
  cases hend : d.mgmt.lockEnd with
  | none => rw [hend] at hover; exact hover
  | some e =>
    rw [hend] at hover
    have hlate : e ≤ d.now := of_decide_eq_true hover
    simp [hlate]

/-- Settles O25: every row but the timeout and the lockout's end is one transaction on the woken device. -/
theorem managementPortEventsHappen : Obligations.ManagementPortEventsHappen := by
  refine ⟨?submit, ?abort, ?release, ?write, pktWindowRead_moves, ?timeout, ?lockoutEnd⟩
  case submit =>
    refine happens_of_mgmtTouch (fun s => (rfl : exec _ s = execSubmit s)) (fun _ => id) fun d _ => ?_
    rw [endTransaction, awake_mgmt]
  case abort =>
    refine happens_of_mgmtTouch (fun s => (rfl : exec _ s = execAbort s)) (fun _ => id) fun d _ => ?_
    rw [abortPacket, awake_mgmt]
  case release =>
    refine happens_of_mgmtTouch (fun s => (rfl : exec _ s = execRelease s)) (fun _ => id) fun d _ => ?_
    rw [releasePacket, awake_mgmt]
  case write =>
    intro v
    refine happens_of_mgmtTouch (fun s => (rfl : exec _ s = execPktWindowWrite v s)) (fun _ => id) fun d _ => ?_
    rw [awake_mgmt]
  case timeout => exact happens_of_lift (fun s => (rfl : exec _ s = execMgmtTransactionTimeout s)) fun _ _ => rfl
  case lockoutEnd =>
    exact happens_of_lift (fun s => (rfl : exec _ s = execMgmtLockoutEnd s)) fun _ h => if_pos (mgmtLocked_over h)

end Sys2Proof.Machine
end

section
/-! PROOFS. VDD, the pad groups' rails and VBAT's domain come and go (R34-R40, R47, R51, R58, R76, R140). -/
namespace Sys2Proof.Machine

/-- The part stands without VDD: nothing connected, or VBAT alone. -/
theorem powerUp_restarts (kept : Bool) : Restarts (.powerUp kept) (fun d => d.power.state == .off || d.power.state == .backup)
    (fun d => restart 2 Cause.por (if d.power.state == .off || !kept then loseAon d else d)) := by
  refine restarts_of_liftR (fun s => (rfl : exec _ s = execPowerUp kept s)) fun d h => ?_
  exact if_pos h

/-- With VDD there its loss enters BACKUP; whether the warning came decides what becomes of the writes (R47, R51, R718). -/
theorem backupEntry_enters (warned inPhase2 : Bool) : Restarts (.backupEntry warned inPhase2)
    (fun d => d.power.state != .off && d.power.state != .backup)
    (fun d => enterBackup (if warned || d.power.pfn then finishWrites d
      else { d with nvm := { d.nvm with phase2 := inPhase2 && !(d.nvm.writes.isEmpty && d.nvm.reservations.isEmpty) } })) := by
  refine restarts_of_liftR (fun s => (rfl : exec _ s = execBackupEntry warned inPhase2 s)) fun d h => ?_
  obtain ⟨hoff, hbackup⟩ : d.power.state ≠ .off ∧ d.power.state ≠ .backup := by simpa using h
  simp only [hoff, hbackup, decide_false, Bool.or_self, Bool.false_eq_true, if_false]

theorem backupEntry_warned (b : Bool) : Restarts (.backupEntry true b) (fun d => d.power.state != .off && d.power.state != .backup)
    (fun d => enterBackup (finishWrites d)) :=
  (backupEntry_enters true b).narrow fun _ h => ⟨h, rfl⟩

theorem backupEntry_unwarned (b : Bool) :
    Restarts (.backupEntry false b) (fun d => d.power.state != .off && d.power.state != .backup && !d.power.pfn)
      (fun d => enterBackup { d with nvm := { d.nvm with phase2 := b && !(d.nvm.writes.isEmpty && d.nvm.reservations.isEmpty) } }) := by
  refine (backupEntry_enters false b).narrow fun d h => ?_
  obtain ⟨hsupply, hpfn⟩ := Bool.and_eq_true_iff.1 h
  rw [Bool.not_eq_true'] at hpfn
  exact ⟨hsupply, by simp only [hpfn, Bool.or_self, Bool.false_eq_true, if_false]⟩

/-- A rail of 1.0 V or more is classed at 2.5 V, from whose value no class is stated (R34, R35). -/
theorem vddioRise_classes (g : Rail) (mv : Nat) : Happens (.vddioRise g mv)
    (fun d => (railOf g d.power).isNone && decide (1000 ≤ mv) && mv != 2500)
    (fun d => { d with power := setRail g (some (decide (2500 < mv))) d.power }) := by
  refine happens_of_lift (fun s => (rfl : exec _ s = execVddioRise g mv s)) fun d h => ?_
  simp only [Bool.and_eq_true, decide_eq_true_eq, Option.isNone_iff_eq_none, bne_iff_ne] at h
  obtain ⟨⟨hdown, henough⟩, hnot⟩ := h
  have hbelow : decide (mv < 1000) = false := decide_eq_false (Nat.not_lt.2 henough)
  have hexact : (mv == 2500) = false := beq_eq_false_iff_ne.2 hnot
  simp only [hdown, hbelow, hexact, Option.isSome_none, Bool.or_self, Bool.false_and, Bool.or_false, Bool.false_eq_true, if_false]

/-- Settles O26: both losses of VDD are the one equation of its row, with the warning and without. -/
theorem supplyEventsHappen : Obligations.SupplyEventsHappen :=
  ⟨powerUp_restarts, backupEntry_warned, backupEntry_unwarned, vddioRise_classes,
    fun g => happens_of_lift (fun s => (rfl : exec _ s = execVddioLoss g s)) fun _ _ => rfl⟩

end Sys2Proof.Machine
end

section
/-! PROOFS. RESET_PIN, the PF_N warning and its release (R43-R50, R52, R161, R716, R724). -/
namespace Sys2Proof.Machine

/-- A pulse of 1 us or more is a reset whatever becomes of shorter ones (R43). -/
theorem longPulse {ns : Nat} (b : Bool) (h : 1000 ≤ ns) : (!(decide (1000 ≤ ns) || (decide (200 ≤ ns) && b))) = false := by
  simp [h]

theorem powered_iff {d : Dev} : powered d = true ↔ d.power.state = .active ∨ d.power.state = .idle ∨ d.power.state = .standby := by
  simp [powered, or_assoc]

theorem resetPin_powered {ns : Nat} (b : Bool) (hlong : 1000 ≤ ns) : Restarts (.resetPin ns b) powered pinReset := by
  refine restarts_of_liftR (fun s => (rfl : exec _ s = execResetPin ns b s)) fun d h => ?_
  rw [longPulse b hlong, if_neg Bool.false_ne_true]
  obtain hactive | hidle | hstandby := powered_iff.1 h
  · rw [hactive]
  · rw [hidle]
  · rw [hstandby]

/-- In HIBERNATE the pin is a wake source (R52). -/
theorem resetPin_hibernate {ns : Nat} (b : Bool) (hlong : 1000 ≤ ns) :
    Restarts (.resetPin ns b) (fun d => d.power.state == .hibernate) (fun d =>
      let x := restart 3 Cause.hibWake (latchCause Cause.pin d)
      { x with power := { x.power with standbyAfter := true } }) := by
  refine restarts_of_liftR (fun s => (rfl : exec _ s = execResetPin ns b s)) fun d h => ?_
  rw [longPulse b hlong, if_neg Bool.false_ne_true, beq_iff_eq.1 h]

/-- A warning of 2 us or more is recognised whatever becomes of shorter ones (R45). -/
theorem pfNWarning_recognised {ns : Nat} (b : Bool) (hlong : 2000 ≤ ns) : Happens (.pfNWarning ns b)
    (fun d => d.power.state != .off && d.power.state != .backup && !d.power.pfn) powerFail := by
  refine happens_of_lift (fun s => (rfl : exec _ s = execPfNWarning ns b s)) fun d h => ?_
  obtain ⟨⟨hoff, hbackup⟩, hpfn⟩ : (d.power.state ≠ .off ∧ d.power.state ≠ .backup) ∧ d.power.pfn = false := by simpa using h
  simp [hlong, hoff, hbackup, hpfn]

/-- What goes on once PF_N is high again and what it stopped is answered: firmware writes the records that waited, the ROM fetches
again from the first source, RECOVERY alone raises READY (R50, R161, R182). -/
def goesOnAfterWarning (d : Dev) : Dev × Bool :=
  if d.boot.running then
    settlePower (attnBoth Attn.ready ((d.app.applets.map (·.ref)).foldl (fun d a => nextActivation a d) (flushOwed (flushDeferred d))))
  else if d.boot.refetch then (trySources (sourceOrder d.fw.bootMode) { d with boot := { d.boot with refetch := false } }, false)
  else if d.boot.progress == 0x0C then (attnBoth Attn.ready d, false)
  else (d, false)

theorem exec_pfNResume {s : State} {p : Dev × Bool} (hpfn : s.dev.power.pfn = true) (hp : goesOnAfterWarning (resumed s.dev) = p) :
    exec .pfNResume s = .next { s with dev := p.1, flow := if p.2 then {} else s.flow } := by
  refine exec_of_liftR (rfl : exec _ s = execPfNResume s) (Eq.trans ?_ hp)
  rw [hpfn]
  rfl

theorem goesOnAfterWarning_running {d : Dev} (hrun : d.boot.running = true) :
    goesOnAfterWarning d = settlePower (attnBoth Attn.ready ((d.app.applets.map (·.ref)).foldl (fun d a => nextActivation a d)
      (flushOwed (flushDeferred d)))) :=
  if_pos hrun

theorem goesOnAfterWarning_refetch {d : Dev} (hrom : d.boot.running = false) (hfetch : d.boot.refetch = true) :
    goesOnAfterWarning d = (trySources (sourceOrder d.fw.bootMode) { d with boot := { d.boot with refetch := false } }, false) := by
  rw [goesOnAfterWarning, hrom, hfetch]
  rfl

theorem goesOnAfterWarning_rom {d : Dev} (hrom : d.boot.running = false) (hfetch : d.boot.refetch = false) :
    goesOnAfterWarning d = (if d.boot.progress == 0x0C then attnBoth Attn.ready d else d, false) := by
  rw [goesOnAfterWarning, hrom, hfetch, if_neg Bool.false_ne_true, if_neg Bool.false_ne_true]
  exact (apply_ite (·, false) _ _ _).symm

/-- Settles O27: what follows the release is one case distinction on the resumed device. -/
theorem resetAndWarningHappen : Obligations.ResetAndWarningHappen :=
  ⟨fun _ b => resetPin_powered b, fun _ b => resetPin_hibernate b, fun _ b => pfNWarning_recognised b,
    fun _ hpfn hrun => exec_pfNResume hpfn (goesOnAfterWarning_running hrun),
    fun _ hpfn hrom hfetch => exec_pfNResume hpfn (goesOnAfterWarning_refetch hrom hfetch),
    fun _ hpfn hrom hfetch => exec_pfNResume hpfn (goesOnAfterWarning_rom hrom hfetch)⟩

end Sys2Proof.Machine
end

section
/-! PROOFS. The boot ROM's flow, its waits and stalls, and the factory's command (R42, R59, R60, R119, R143, R151, R163). -/
namespace Sys2Proof.Machine

/-- The ROM has been entered, PF_N does not hold it and SEC is not halted. -/
def romEntered (d : Dev) : Bool :=
  d.power.state == .active && !d.boot.running && d.boot.progress == 0x01 && !d.power.pfn && !d.dbg.halted.contains 1

/-- From ROM entry the flow runs, unless a start from phase 3 or before finds the core rail off (R42, R60). -/
theorem bootRomFlow_entered (b : BootIn) : Happens (.bootRomFlow b) romEntered
    (fun d => if d.boot.phase ≤ 3 && !coreRailOk b then
        { d with power := { d.power with coreFault := some (max b.coreRail 800 - min b.coreRail 800) } }
      else romFlow b d) := by
  refine happens_of_lift (fun s => (rfl : exec _ s = execBootRomFlow b s)) fun d h => ?_
  exact if_pos h

theorem bootRomFlow_runs (b : BootIn) :
    Happens (.bootRomFlow b) (fun d => romEntered d && (decide (3 < d.boot.phase) || coreRailOk b)) (romFlow b) := by
  refine (bootRomFlow_entered b).narrow fun d h => ?_
  obtain ⟨hentered, hpass⟩ := Bool.and_eq_true_iff.1 h
  refine ⟨hentered, if_neg fun hheld => ?_⟩
  obtain ⟨hearly, hoff⟩ := Bool.and_eq_true_iff.1 hheld
  obtain hlate | hrail := Bool.or_eq_true_iff.1 hpass
  · exact absurd (of_decide_eq_true hearly) (Nat.not_le.2 (of_decide_eq_true hlate))
  · rw [hrail] at hoff; cases hoff

/-- The core rail off 0.800 V holds start-up in phase 3, with its excursion noted (R60). -/
theorem bootRomFlow_held (b : BootIn) : Happens (.bootRomFlow b) (fun d => romEntered d && decide (d.boot.phase ≤ 3) && !coreRailOk b)
    (fun d => { d with power := { d.power with coreFault := some (max b.coreRail 800 - min b.coreRail 800) } }) := by
  refine (bootRomFlow_entered b).narrow fun d h => ?_
  obtain ⟨hearly, hrail⟩ := Bool.and_eq_true_iff.1 h
  obtain ⟨hentered, hphase⟩ := Bool.and_eq_true_iff.1 hearly
  exact ⟨hentered, if_pos (Bool.and_eq_true_iff.2 ⟨hphase, hrail⟩)⟩

/-- Settles O29: each row's condition is the condition of its meaning. -/
theorem startUpHappens : Obligations.StartUpHappens := by
  refine ⟨bootRomFlow_runs, bootRomFlow_held, ?crystal, ?waitHost, ?stall, ?factory⟩
  case crystal => exact happens_of_lift (fun s => (rfl : exec _ s = execCrystalStartTimeout s)) fun _ h => if_pos h
  case waitHost => exact happens_of_lift (fun s => (rfl : exec _ s = execWaitHostTimeout s)) fun _ h => if_pos h
  case stall => exact happens_of_lift (fun s => (rfl : exec _ s = execBootPushStallTimeout s)) fun _ h => if_pos h
  case factory => exact happens_of_lift (fun s => (rfl : exec _ s = execFactoryTestCommand s)) fun _ h => if_pos h

end Sys2Proof.Machine
end

section
/-! PROOFS. Appending a journal record leaves the supplies and the power state as they were; a trigger that a record fires may wake
the device from STANDBY, no more (R52, R665). -/
namespace Sys2Proof.Machine

@[simp] theorem modStream_power (m : Bool) (f : Stream → Stream) (d : Dev) : (modStream m f d).power = d.power := by
  unfold modStream; split <;> rfl

@[simp] theorem logAt_power (c : Byte) (p : Nat) (a b : Word) (k : Bool) (d : Dev) : (logAt c p a b k d).power = d.power := by
  unfold logAt; split <;> rfl

@[simp] theorem checkPressure_power (d : Dev) : (checkPressure d).power = d.power := by
  unfold checkPressure; repeat' split
  all_goals rfl

@[simp] theorem closeSegment_power (m : Bool) (d : Dev) : (closeSegment m d).power = d.power := by
  unfold closeSegment; split
  · rfl
  · exact modStream_power _ _ _

@[simp] theorem openSegment_power (m : Bool) (d : Dev) : (openSegment m d).power = d.power := by
  unfold openSegment; split
  · rfl
  · rfl
  · exact (checkPressure_power _).trans (modStream_power _ _ _)

@[simp] theorem mergeStubs_power (d : Dev) : (mergeStubs d).power = d.power := by
  unfold mergeStubs; repeat' split
  all_goals rfl

@[simp] theorem foldSegment_power (s : Segment) (d : Dev) : (foldSegment s d).power = d.power :=
  (mergeStubs_power _).trans (logAt_power _ _ _ _ _ _)

/-- Steps that each leave the power state as it was leave it so together. -/
theorem foldl_power {α : Type} {f : Dev → α → Dev} (h : ∀ d x, (f d x).power = d.power) (l : List α) (d : Dev) :
    (l.foldl f d).power = d.power :=
  List.foldlRecOn (motive := fun x => x.power = d.power) l f rfl fun x hx a _ => (h x a).trans hx

@[simp] theorem makeSignature_power (c : Nat) (k m : List Byte) (n : Nat) (d : Dev) : (makeSignature c k m n d).2.power = d.power := by
  obtain ⟨w, hw⟩ := makeSignature_spends c k m n d
  rw [hw]; rfl

@[simp] theorem signedHem_power (k : DeviceKey) (d : Dev) : (signedHem d k).2.power = d.power := by
  unfold signedHem; dsimp only; split
  · simp only [makeSignature_power, logAt_power]
  · simp only [makeSignature_power, logAt_power]

theorem hemOf_power {d v b x} (h : hemOf d = some (v, b, x)) : x.power = d.power := by
  unfold hemOf at h
  split at h
  · injection h with h; injection h with _ h; injection h with _ h
    subst h; exact signedHem_power _ d
  · cases h

theorem placeRecord_power {m t q c vals tail d x} (h : placeRecord m t q c vals tail d = some x) : x.2.power = d.power := by
  unfold placeRecord at h
  split at h
  · cases h
  · dsimp only at h
    split at h
    · injection h with h; subst h; exact modStream_power _ _ _
    · cases h

theorem writeRecord_power (n : Nat) : ∀ {m t q c vals tail d x}, writeRecord n m t q c vals tail d = some x → x.2.power = d.power := by
  induction n with
  | zero => intro m t q c vals tail d x h; cases h
  | succ n ih =>
    have orElsePower : ∀ (p : PowerState) (m : Bool) (t q : Nat) vals tail (d e : Dev), d.power = p → e.power = p →
        (((writeRecord n m t q 1 vals tail d).map (·.2)).getD e).power = p := by
      intro p m t q vals tail d e hd he
      cases hw : writeRecord n m t q 1 vals tail d with
      | none => exact he
      | some y => exact (ih hw).trans hd
    intro m t q c vals tail d x h
    unfold writeRecord at h
    split at h
    next hplaced => injection h with h; subst h; exact placeRecord_power hplaced
    next =>
      dsimp only at h
      generalize hfolds : (if m = true then List.filter (canFold (closeSegment m d)) (closeSegment m d).jrn.segments else []) = fs at h
      generalize hopened : openSegment m (List.foldl (fun d s => foldSegment s d) (closeSegment m d) fs) = opened at h
      have hopenedPower : opened.power = d.power := by
        rw [← hopened, openSegment_power, foldl_power fun d s => foldSegment_power s d, closeSegment_power]
      split at h
      · cases h
      · generalize hfolded : List.foldl _ opened fs = folded at h
        have hfoldedPower : folded.power = d.power := by
          rw [← hfolded, ← hopenedPower]
          exact foldl_power (fun d _ => orElsePower _ _ _ _ _ _ d d rfl rfl) fs opened
        have placedOrAgain : ∀ e : Dev, e.power = d.power → (match placeRecord m t q c vals tail e with
            | some y => some y
            | none => writeRecord n m t q c vals tail e) = some x → x.2.power = d.power := by
          intro e he h
          split at h
          next hplaced => injection h with h; subst h; exact (placeRecord_power hplaced).trans he
          next => exact (ih h).trans he
        refine placedOrAgain _ ?_ h
        split
        next hhem =>
          have hsigned := (hemOf_power hhem).trans hfoldedPower
          exact orElsePower _ _ _ _ _ _ _ _ hsigned hsigned
        next => exact hfoldedPower

@[simp] theorem flushSummary_power (d : Dev) : (flushSummary d).power = d.power := by
  unfold flushSummary; split
  · rfl
  · refine foldl_power (fun d s => ?_) _ _
    split
    next hwritten => exact writeRecord_power 8 hwritten
    next => rfl

@[simp] theorem finishOpenRecord_power (m : Bool) (d : Dev) : (finishOpenRecord m d).power = d.power := by
  unfold finishOpenRecord; split
  · rfl
  · exact modStream_power _ _ _

@[simp] theorem appendAt_power (t q c : Nat) (vals : List Int) (tail : Tail) (d : Dev) : (appendAt t q c vals tail d).2.power = d.power := by
  have hready : ∀ m, (finishOpenRecord m (flushSummary d)).power = d.power := fun m => by simp
  unfold appendAt; split
  · rfl
  · dsimp only; split
    next hwritten => exact (writeRecord_power 8 hwritten).trans (hready _)
    next => split <;> exact hready _

theorem clockChecked_of_power {d e : Dev} (h : e.power = d.power) : clockChecked e = clockChecked d := by
  unfold clockChecked; rw [h]

theorem clockChecked_awake (d : Dev) : clockChecked (awake d) = clockChecked d := by
  unfold awake; split
  next hstandby => simp [clockChecked, hstandby]
  next => rfl

/-- A trigger leaves the device in the powered states or out of them: all it does to the power state is to wake the device. -/
theorem fireTrigger_clockChecked (c : Nat) (regs : List Word) (a : AppletRef) (d : Dev) :
    clockChecked (fireTrigger c regs a d) = clockChecked d := by
  unfold fireTrigger
  split
  · rfl
  split
  · rfl
  split
  · rfl
  split
  · rfl
  dsimp only
  generalize hwoken : (if d.power.state = .standby then { d with power := { d.power with state := .active } } else d) = woken
  refine (clockChecked_of_power (d := woken) ?_).trans (hwoken ▸ clockChecked_awake d)
  repeat' split
  all_goals rfl

theorem afterCommit_clockChecked (o : Option AppletRef) (m : Bool) (t : Nat) (seq : Word) (vals : List Int) (d : Dev) :
    clockChecked (afterCommit o m t seq vals d) = clockChecked d := by
  have htriggers : ∀ x y, clockChecked (journalTriggers o t m seq x y d) = clockChecked d := fun x y =>
    List.foldlRecOn (motive := fun x => clockChecked x = clockChecked d) _ _ rfl
      fun x hx a _ => (fireTrigger_clockChecked _ _ a x).trans hx
  unfold afterCommit; dsimp only
  repeat' split
  all_goals exact htriggers _ _

theorem journalPut_clockChecked (t q : Nat) (vals : List Int) (tail : Tail) (d : Dev) :
    clockChecked (journalPut t q vals tail d).2 = clockChecked d := by
  have happend := clockChecked_of_power (appendAt_power t q 1 vals tail d)
  unfold journalPut
  split
  next happended => rw [afterCommit_clockChecked]; rw [happended] at happend; exact happend
  next happended => rw [happended] at happend; exact happend

/-- A record that SEC appends leaves the device in the powered states or out of them. -/
theorem secRecord_clockChecked (t : Nat) (vals : List Nat) (d : Dev) : clockChecked (secRecord t vals d) = clockChecked d := by
  unfold secRecord secRecordAt secAppend
  split
  · rfl
  · exact journalPut_clockChecked _ _ _ _ _

end Sys2Proof.Machine
end

section
/-! PROOFS. Pulses, gates, standstill, the speed trace with its copy, folding (R46, R52, R89-R98, R448-R453, R461). -/
namespace Sys2Proof.Machine

theorem setMotion_clockChecked (m : Bool) (d : Dev) : clockChecked (setMotion m d) = clockChecked d := by
  unfold setMotion; dsimp only
  split
  · exact secRecord_clockChecked _ _ _
  · split <;> rfl

/-- The device with a pulse counted, in motion from now on (R89, R93). -/
def pulseCounted (d : Dev) : Dev :=
  let x : Dev := { d with dist := { d.dist with pulses := d.dist.pulses + 1 } }
  if d.dist.moving then x else setMotion true x

theorem pulseCounted_clockChecked (d : Dev) : clockChecked (pulseCounted d) = clockChecked d := by
  unfold pulseCounted; dsimp only
  split
  · rfl
  · exact setMotion_clockChecked _ _

/-- The same pulse in the powered states: the device is awake, and the pulse joins its gate and the last second's (R52, R92, R94). -/
def pulseTimed (t : Nat) (d : Dev) : Dev :=
  let y := awake (pulseCounted d)
  { y with dist := { y.dist with
    gatePulses := countGate (y.now / 1024) y.dist.gatePulses, previous := if d.dist.moving then d.dist.last else none, last := some t
    recent := t :: d.dist.recent.filter (fun x => decide (t < x + 1048576)) } }

/-- A pulse of full width counts in every state with a supply but BACKUP; its speed is measured in the powered states alone. -/
theorem spdPulse_counts (low high t : Nat) : Happens (.spdPulse low high t)
    (fun d => d.power.state != .off && d.power.state != .backup && decide (filterWidth d ≤ low) && decide (filterWidth d ≤ high))
    (fun d => if clockChecked d then pulseTimed t d else pulseCounted d) := by
  refine happens_of_lift (fun s => (rfl : exec _ s = execSpdPulse low high t s)) fun d h => ?_
  simp only [Bool.and_eq_true, bne_iff_ne, decide_eq_true_eq] at h
  obtain ⟨⟨⟨hoff, hbackup⟩, hlow⟩, hhigh⟩ := h
  simp only [hoff, hbackup, Nat.not_lt.2 hlow, Nat.not_lt.2 hhigh, decide_false, Bool.or_self, Bool.false_eq_true, if_false]
  change (if (!clockChecked (pulseCounted d)) = true then pulseCounted d else pulseTimed t d) = _
  rw [pulseCounted_clockChecked]
  cases hchecked : clockChecked d with
  | true => rfl
  | false => rfl

theorem pulseCounts : PulseCounts := by
  refine ⟨fun low high t => ?powered, fun low high t => ?unpowered⟩
  case powered =>
    refine (spdPulse_counts low high t).narrow fun d h => ?_
    obtain ⟨⟨hchecked, hlow⟩, hhigh⟩ : (clockChecked d = true ∧ _) ∧ _ := by simpa only [Bool.and_eq_true] using h
    have hsupply : d.power.state ≠ .off ∧ d.power.state ≠ .backup := by
      constructor <;> intro hstate <;> simp [clockChecked, hstate] at hchecked
    exact ⟨by simp only [bne_iff_ne.2 hsupply.1, bne_iff_ne.2 hsupply.2, hlow, hhigh, Bool.and_self], if_pos hchecked⟩
  case unpowered =>
    refine (spdPulse_counts low high t).narrow fun d h => ?_
    obtain ⟨⟨hstate, hlow⟩, hhigh⟩ : (_ ∧ decide (filterWidth d ≤ low) = true) ∧ decide (filterWidth d ≤ high) = true := by
      simpa only [Bool.and_eq_true] using h
    rw [hlow, hhigh]
    simp only [Bool.or_eq_true, beq_iff_eq] at hstate
    obtain hhibernate | hshutdown := hstate
    · exact ⟨by rw [hhibernate]; rfl, if_neg (by rw [clockChecked, hhibernate]; decide)⟩
    · exact ⟨by rw [hshutdown]; rfl, if_neg (by rw [clockChecked, hshutdown]; decide)⟩

/-- The copy of the trace in its period, no NVM write being started under PF_N (R46, R453). -/
theorem traceMirror_copies : Happens .traceMirror
    (fun d => d.boot.running && !d.power.pfn && decide (d.jrn.mirrorAt < d.now / 2457600))
    (fun d => healthWrite 1 { d with jrn := { d.jrn with mirrorAt := d.now / 2457600 }, mgmt := { d.mgmt with
      traceCopy := d.jrn.vertices, traceCopyTick := d.jrn.traceAt } }) := by
  refine happens_of_lift (fun s => (rfl : exec _ s = execTraceMirror s)) fun d h => (if_pos h).trans ?_
  simp only [Bool.and_eq_true, Bool.not_eq_true'] at h
  obtain ⟨⟨-, hpfn⟩, -⟩ := h
  simp only [mirrorTrace, hpfn, Bool.false_eq_true, if_false]

/-- Settles O31: of the pulse it turns on that counting it leaves the powered states what they are; the other rows answer their
meaning under its condition. -/
theorem speedEventsHappen : Obligations.SpeedEventsHappen := by
  refine ⟨pulseCounts, ?gate, ?standstill, ?sample, traceMirror_copies, ?fold⟩
  case gate => exact fun now => happens_of_lift (fun s => (rfl : exec _ s = execSpeedGate now s)) fun _ h => if_pos h
  case standstill => exact fun now => happens_of_lift (fun s => (rfl : exec _ s = execStandstillTimeout now s)) fun _ h => if_pos h
  case sample => exact happens_of_lift (fun s => (rfl : exec _ s = execTraceSample s)) fun _ h => if_pos h
  case fold => exact happens_of_lift (fun s => (rfl : exec _ s = execJournalFold s)) fun _ h => if_pos h

end Sys2Proof.Machine
end

section
/-! PROOFS. NVM writes end, rows are scrubbed, known-answer tests clear or fence, the random source fails, nonce reservations end
(R46, R348, R373-R378, R383, R418, R627-R632, R718, R722). -/
namespace Sys2Proof.Machine

/-- The oldest write ends and is off the queue (R718). -/
theorem nvmCommitEnd_ends (e : WriteEnd) (w : NvmWrite) : Happens (.nvmCommitEnd e) (fun d => d.nvm.writes.head? == some w)
    (fun d => heldOutcome d (endWrite e w (writeTaken d))) := by
  refine happens_of_lift (fun s => (rfl : exec _ s = execNvmCommitEnd e s)) fun d h => ?_
  obtain ⟨rest, hwrites⟩ := List.head?_eq_some_iff.1 (beq_iff_eq.1 h)
  simp only [writeTaken, hwrites, List.drop_succ_cons, List.drop_zero]

/-- Outside PF_N a clean row has nothing of its last scrub to keep (R46, R628). -/
theorem nvmScrub_clean (row : Nat) (area : RowArea) : Happens (.nvmScrub row area .clean) (fun d => !d.power.pfn)
    (fun d => { d with nvm := { d.nvm with lastScrub := d.nvm.lastScrub.filter (fun x => x.1 != row) } }) := by
  refine happens_of_lift (fun s => (rfl : exec _ s = execNvmScrub row area .clean s)) fun d h => ?_
  rw [Bool.not_eq_true'] at h
  simp [h, needsRemap]

/-- A journal row takes a spare row as long as more than the protected 16 are left (R630). -/
theorem failRow_journal {row : Nat} {main : Bool} {i : Nat} {d : Dev} (hspare : 16 < d.nvm.spare) :
    failRow row (.journal main i) d = takeSpare row d :=
  if_pos (decide_eq_true hspare)

theorem nvmScrub_uncorrectable (row i : Nat) (main : Bool) : Happens (.nvmScrub row (.journal main i) .uncorrectable)
    (fun d => !d.power.pfn && decide (16 < d.nvm.spare))
    (fun d =>
      let x := takeSpare row (alertBit Alert.uncorrectable d)
      { x with nvm := { x.nvm with lastScrub := x.nvm.lastScrub.filter (fun y => y.1 != row) } }) := by
  refine happens_of_lift (fun s => (rfl : exec _ s = execNvmScrub row (.journal main i) .uncorrectable s)) fun d h => ?_
  simp only [Bool.and_eq_true, Bool.not_eq_true', decide_eq_true_eq] at h
  obtain ⟨hpfn, hspare⟩ := h
  have hrow : failRow row (.journal main i) (alertBit Alert.uncorrectable d) = takeSpare row (alertBit Alert.uncorrectable d) :=
    failRow_journal hspare
  simp [hpfn, needsRemap, hrow]

/-- A lane that is in use runs its known-answer test: passed, it owes none; failed, it is fenced (R373-R376). -/
theorem laneKat_tests (l : Fin 9) (passed : Bool) : Happens (.laneKat l passed) (fun d => !laneOut d l.val)
    (fun d =>
      let x := logAt Core.sch 210 (word l.val) (word (flag passed)) false d
      if passed then fillLanes (modLane l.val (fun y => { y with owesKat := false }) x) else fillLanes (fenceLaneFor l.val 1 x)) := by
  refine happens_of_lift (fun s => (rfl : exec _ s = execLaneKat l passed s)) fun d h => ?_
  exact if_neg (by simpa using h)

theorem hashKat_fences (u : Fin 4) : Happens (.hashKat u false) (fun d => !clusterOut d u.val && !(d.sym.clusters.getD u.val {}).hashFenced)
    (fun d => fenceRecord (0x30 + u.val) 1 (reportFence (0x30 + u.val) 1
      (modCluster u.val (fun c => { c with hashFenced := true }) (logAt Core.sch 210 (word (0x30 + u.val)) 0 false d)))) := by
  refine happens_of_lift (fun s => (rfl : exec _ s = execHashKat u false s)) fun d h => ?_
  exact if_neg (by simpa [-List.getD_eq_getElem?_getD] using h)

/-- An engine that serves runs its known-answer test (R418). -/
theorem pkKat_tests (e : Fin 2) (passed : Bool) : Happens (.pkKat e passed) (fun d => engineServes d e.val)
    (fun d =>
      let x := logAt Core.sch 210 (word (0x20 + e.val)) (word (flag passed)) false d
      if passed then x else failPkStranded (fenceEngine e.val 1 x)) := by
  refine happens_of_lift (fun s => (rfl : exec _ s = execPkKat e passed s)) fun d h => ?_
  exact if_neg (by simpa using h)

/-- The device after a reservation's commit ended: a verified one has raised its slot's limit, with trace point 84 (R348). -/
def reservationEnded (ok : Bool) (x : Reservation) (d : Dev) : Dev :=
  if ok then limitRaised x d else reserved x (fun n => { n with broken := true, reserving := false }) d

/-- After the commit its command goes on, if it still waits: a stream opens, a cipher command is served or waits for its lane. -/
theorem nonceReservationCommit_ends (id : Nat) (ok : Bool) (x : Reservation) : Happens (.nonceReservationCommit id ok)
    (fun d => d.nvm.reservations.find? (fun y => y.id == id) == some x)
    (fun d =>
      let y := reservationEnded ok x d
      match y.cmds.find? (fun r => r.id == id) with
      | none => y
      | some r =>
        if r.opcode == 0x0410 then serve r (fun _ => needTenant r) (openStream r) y
        else if canDispatch y r || !ok then serveLaneCmd r y
        else markReady r.id y) := by
  refine happens_of_lift (fun s => (rfl : exec _ s = execNonceReservationCommit id ok s)) fun d h => ?_
  rw [beq_iff_eq.1 h]
  cases ok with
  | true => rfl
  | false =>
    dsimp only
    generalize slotAt _ x.tenant x.index = slot
    cases slot with
    | none => rfl
    | some y => rfl

/-- The command no longer waits: it ended while the commit was under way. -/
theorem nonceReservationCommit_alone (id : Nat) (ok : Bool) (x : Reservation) : Happens (.nonceReservationCommit id ok)
    (fun d => d.nvm.reservations.find? (fun y => y.id == id) == some x && !(reservationEnded ok x d).cmds.any (fun r => r.id == id))
    (reservationEnded ok x) := by
  refine (nonceReservationCommit_ends id ok x).narrow fun d h => ?_
  obtain ⟨hfound, hnone⟩ := Bool.and_eq_true_iff.1 h
  have hgone : (reservationEnded ok x d).cmds.find? (fun r => r.id == id) = none := by simpa using hnone
  exact ⟨hfound, by simp only [hgone]⟩

/-- The cipher command that waited for the limit draws its nonce, on a lane now or when one is free (R348). -/
theorem nonceReservationCommit_draws (id : Nat) (r : Req) (x : Reservation) : Happens (.nonceReservationCommit id true)
    (fun d => d.nvm.reservations.find? (fun y => y.id == id) == some x
      && (limitRaised x d).cmds.find? (fun y => y.id == id) == some r && r.opcode == 0x0401)
    (fun d => if canDispatch (limitRaised x d) r then serveLaneCmd r (limitRaised x d) else markReady r.id (limitRaised x d)) := by
  refine (nonceReservationCommit_ends id true x).narrow fun d h => ?_
  simp only [Bool.and_eq_true, beq_iff_eq] at h
  obtain ⟨⟨hfound, hwaits⟩, hcipher⟩ := h
  refine ⟨beq_iff_eq.2 hfound, ?_⟩
  have hstream : (r.opcode == 0x0410) = false := by rw [hcipher]; decide
  simp only [reservationEnded, if_true, hwaits, hstream, Bool.not_true, Bool.or_false, Bool.false_eq_true, if_false]

/-- Settles O34: each row's condition picks the branch of its meaning; the three clauses of a reservation are the ends of its command. -/
theorem unitEventsHappen : Obligations.UnitEventsHappen :=
  ⟨nvmCommitEnd_ends, nvmScrub_clean, nvmScrub_uncorrectable, fun l => laneKat_tests l true, fun l => laneKat_tests l false,
    hashKat_fences, fun e => pkKat_tests e false, fun e => pkKat_tests e true, fun _ => ⟨_, rfl, rfl⟩,
    fun id => nonceReservationCommit_alone id true, fun id => nonceReservationCommit_alone id false, nonceReservationCommit_draws⟩

end Sys2Proof.Machine
end

section
/-! PROOFS. The indexed stores read back: what a counter or a word reads after a write to it and to another place (R99, R691). -/
namespace Sys2Proof.Machine

theorem counterAt_cons (c : Counter) (cs : List Counter) (i : Nat) :
    counterAt (c :: cs) i = if i = c.index then c else counterAt cs i := by
  by_cases h : i = c.index
  · simp [counterAt, h]
  · simp [counterAt, h, Ne.symm h]

/-- Below every listed counter lie only counters that nobody holds, at 0 (R99). -/
theorem counterAt_below {l : List Counter} {i : Nat} (h : ∀ y ∈ l, i < y.index) : counterAt l i = { index := i } := by
  induction l with
  | nil => rfl
  | cons c cs ih =>
    obtain ⟨hc, hcs⟩ := List.forall_mem_cons.1 h
    rw [counterAt_cons, if_neg (Nat.ne_of_lt hc), ih hcs]

theorem counter_of_default {x : Counter} (h : x.default = true) : x = { index := x.index } := by
  obtain ⟨index, holder, value⟩ := x
  simpa [Counter.default] using h

/-- A counter before a list that lies above it, listed or left out, reads back there. -/
theorem counterAt_placed (x : Counter) {l : List Counter} (h : ∀ y ∈ l, x.index < y.index) (i : Nat) :
    counterAt (if x.default then l else x :: l) i = if i = x.index then x else counterAt l i := by
  cases hd : x.default with
  | false => exact counterAt_cons x l i
  | true =>
    rw [if_pos rfl]
    split
    next hi => rw [hi, counterAt_below h, ← counter_of_default hd]
    next => rfl

/-- In a list in canonical form a write changes what one counter reads. -/
theorem counterAt_putCounter (x : Counter) (i : Nat) {cs : List Counter} (h : countersWf cs = true) :
    counterAt (putCounter x cs) i = if i = x.index then x else counterAt cs i := by
  induction cs with
  | nil => exact counterAt_placed x (by simp) i
  | cons c cs ih =>
    obtain ⟨-, hhead, hcs⟩ := (countersWf_cons _ _).1 h
    have habove : ∀ y ∈ cs, c.index < y.index := counters_gt cs c.index hhead hcs
    unfold putCounter
    split
    next hlt => exact counterAt_placed x (List.forall_mem_cons.2 ⟨hlt, fun y hy => Nat.lt_trans hlt (habove y hy)⟩) i
    next hge =>
      split
      next heq =>
        rw [counterAt_placed x (heq ▸ habove), counterAt_cons, ← heq]
        split <;> rfl
      next hne =>
        rw [counterAt_cons, counterAt_cons, ih hcs]
        by_cases hi : i = x.index
        · rw [if_pos hi, if_pos hi, if_neg (hi ▸ hne)]
        · rw [if_neg hi, if_neg hi]

theorem find_word_cons (x : Nat × Word) (l : List (Nat × Word)) (j : Nat) :
    (x :: l).find? (fun y => y.1 == j) = if j = x.1 then some x else l.find? (fun y => y.1 == j) := by
  by_cases h : j = x.1
  · simp [h]
  · simp [h, Ne.symm h]

/-- A write changes what one word reads, in any list. -/
theorem find_putWord (k : Nat) (v : Word) (j : Nat) (l : List (Nat × Word)) :
    (putWord k v l).find? (fun x => x.1 == j) = if j = k then some (k, v) else l.find? (fun x => x.1 == j) := by
  induction l with
  | nil => exact find_word_cons (k, v) [] j
  | cons x xs ih =>
    unfold putWord
    split
    next => exact find_word_cons (k, v) (x :: xs) j
    next =>
      split
      next hsame =>
        rw [find_word_cons, find_word_cons, ← hsame]
        split <;> rfl
      next hother =>
        rw [find_word_cons, find_word_cons, ih]
        by_cases hj : j = k
        · rw [if_pos hj, if_pos hj, if_neg (hj ▸ hother)]
        · rw [if_neg hj, if_neg hj]

/-- Settles O53: both stores by their one equation for a read after a write. -/
theorem indexedStoresCanonical : Obligations.IndexedStoresCanonical := by
  refine ⟨fun x cs h => ⟨putCounter_wf x cs h, ?_, fun i hi => ?_⟩, fun k v l h => ⟨putWord_wf k v l h, ?_, fun j hj => ?_⟩⟩
  · rw [counterAt_putCounter x _ h, if_pos rfl]
  · rw [counterAt_putCounter x _ h, if_neg hi]
  · rw [find_putWord, if_pos rfl]
  · rw [find_putWord, if_neg hj]

end Sys2Proof.Machine
end

section
/-! PROOFS. The pulse counter: counting is all a pulse does to it (R89). -/
namespace Sys2Proof.Machine

@[simp] theorem awake_dist (d : Dev) : (awake d).dist = d.dist := by
  unfold awake; split <;> rfl

/-- The motion state is all that a change of it, with its record, makes of the distance unit. -/
@[simp] theorem setMotion_dist (m : Bool) (d : Dev) : (setMotion m d).dist = { d.dist with moving := m } := by
  unfold setMotion; dsimp only
  split
  · exact secRecord_dist _ _ _
  · split <;> rfl

theorem pulseCounted_pulses (d : Dev) : (pulseCounted d).dist.pulses = d.dist.pulses + 1 := by
  unfold pulseCounted; dsimp only
  split
  · rfl
  · rw [setMotion_dist]

theorem pulseTimed_pulses (t : Nat) (d : Dev) : (pulseTimed t d).dist.pulses = d.dist.pulses + 1 := by
  rw [← pulseCounted_pulses d, ← awake_dist (pulseCounted d)]
  rfl

/-- A pulse that is too short, or that comes in BACKUP, changes nothing. -/
theorem spdPulse_ignored {low high t : Nat} {s : State}
    (h : s.dev.power.state = .backup ∨ low < filterWidth s.dev ∨ high < filterWidth s.dev) : exec (.spdPulse low high t) s = .next s := by
  change execSpdPulse low high t s = _
  rw [execSpdPulse, lift, if_pos]
  simpa [or_assoc] using Or.inr h

/-- Settles O55: the device in which a pulse is counted, with its timing in the powered states, has one pulse more. -/
theorem pulsesAreCounted : Obligations.PulsesAreCounted := by
  refine ⟨fun low high t s hoff hbackup hlow hhigh => ?counts, fun low high t s h => spdPulse_ignored (.inl h),
    fun low high t s h => spdPulse_ignored (.inr h)⟩
  refine ⟨_, spdPulse_counts low high t s (by simp [hoff, hbackup, hlow, hhigh]), ?_⟩
  have hpulses : ∀ d, (if clockChecked d then pulseTimed t d else pulseCounted d).dist.pulses = d.dist.pulses + 1 := by
    intro d
    split
    · exact pulseTimed_pulses t d
    · exact pulseCounted_pulses d
  rw [hpulses, BitVec.toNat_add]
  rfl

end Sys2Proof.Machine
end

section
/-! PROOFS. Host commands: from what a row's checks and body give to the row's effect, and what a completion leaves of the commands
that wait (R203, R708). -/
namespace Sys2Proof.Machine

/-- A row that is a host command has its effect when, under the effect's conditions, its issuer check and body come to that effect. -/
theorem HostEffect.holds_of_hostCmd {e : HostEffect} {issuer : Req → Dev → Res Unit} {body : Req → Dev → Res (Dev × Done)}
    (hexec : ∀ r s, exec (e.row r) s = hostCmd e.op r (issuer r) (body r) s)
    (hbody : ∀ r s d, taken r s.dev = d → e.pre r d = true → outcome r s (issuer r d >>= fun _ => body r d) = e.out r d s) :
    e.Holds := by
  intro r s hserved hpre
  rw [hexec, hostCmd_eq hserved]
  exact hbody r s _ rfl hpre

/-- A refusal without words of its own leaves the device as the refused command left it. -/
theorem outcome_rej (r : Req) (s : State) (st : Byte) (n : Nat) :
    outcome r s (rej st n) = .next { s with dev := refuseWith r st n (taken r s.dev) } := by
  simp [outcome, settle, rej, refuse, keepHeart]

theorem need_bind_false {α : Type} {c : Bool} {st : Byte} {n : Nat} (h : c = false) (f : Unit → Res α) : (need c st n >>= f) = rej st n := by
  subst h; rfl

theorem needTenant_ok {r : Req} (h : (r.tenant != 0xFF) = true) : needTenant r = .ok () := need_ok h

theorem needOwner_ok {r : Req} (h : (r.tenant == 0 && r.inSession) = true) : needOwner r = .ok () := need_ok h

/-- What serving a command makes of the device that holds it. -/
theorem serve_eq {op : Nat} {r : Req} {d : Dev} (issuer : Dev → Res Unit) (body : Dev → Res (Dev × Done)) (h : Served op r d) :
    serve r issuer body d = settle r (taken r d) (issuer (taken r d) >>= fun _ => body (taken r d)) := by
  have hcmd : hostCmd op r issuer body { dev := d } = _ := hostCmd_eq h
  rw [hostCmd, lift, if_pos ⟨h.1, h.2.1⟩] at hcmd
  injection hcmd with hstate
  exact congrArg State.dev hstate

@[simp] theorem dropStaged_cmds (id : Nat) (b : Bool) (d : Dev) : (dropStaged id b d).cmds = d.cmds := rfl

@[simp] theorem freeRing_cmds (r : Req) (d : Dev) : (freeRing r d).cmds = d.cmds := by
  unfold freeRing; split
  · exact modPort_cmds _ _ _
  · rfl

@[simp] theorem countOutcome_cmds (r : Req) (st : Byte) (d : Dev) : (countOutcome r st d).cmds = d.cmds := by
  unfold countOutcome; repeat' split
  all_goals rfl

@[simp] theorem logAt_cmds (c : Byte) (p : Nat) (a b : Word) (k : Bool) (d : Dev) : (logAt c p a b k d).cmds = d.cmds := by
  unfold logAt; split <;> rfl

@[simp] theorem traceT_cmds (c : Byte) (p : Nat) (t : Byte) (a b : Word) (d : Dev) : (traceT c p t a b d).cmds = d.cmds :=
  logAt_cmds _ _ _ _ _ _

@[simp] theorem traceOutcome_cmds (r : Req) (st : Byte) (d : Dev) : (traceOutcome r st d).cmds = d.cmds := by
  unfold traceOutcome; dsimp only
  rw [traceT_cmds]
  repeat' split
  all_goals simp only [traceT_cmds]

@[simp] theorem routeTimed_cmds (x : Reply) (d : Dev) : (routeTimed x d).cmds = d.cmds := by
  unfold routeTimed; repeat' split
  all_goals rfl

@[simp] theorem freeSlot_cmds (id : Nat) (d : Dev) : (freeSlot id d).cmds = d.cmds := by
  unfold freeSlot; split <;> rfl

@[simp] theorem route_cmds (x : Reply) (d : Dev) : (route x d).cmds = d.cmds := by
  unfold route; split
  · exact logAt_cmds _ _ _ _ _ _
  · split
    · exact routeTimed_cmds _ _
    · exact freeSlot_cmds _ _
  · exact routeTimed_cmds _ _

/-- A completion leaves the commands that wait. -/
@[simp] theorem complete_cmds (r : Req) (st : Byte) (ws : List Word) (n : Nat) (d : Dev) : (complete r st ws n d).cmds = d.cmds := by
  simp only [complete, route_cmds, traceOutcome_cmds, countOutcome_cmds, freeRing_cmds, dropStaged_cmds]

@[simp] theorem conclude_cmds (r : Req) (st : Byte) (ws : List Word) (n : Nat) (d : Dev) : (conclude r st ws n d).cmds = d.cmds :=
  complete_cmds _ _ _ _ _

/-- No dimension looks at the commands that wait. -/
theorem dims_taken (r : Req) (d : Dev) : dims r (taken r d) = dims r d := rfl

end Sys2Proof.Machine
end

section
/-! PROOFS. DISTANCE_READ, GNSS_FEED and the counter commands (R90, R95-R104, R116). -/
namespace Sys2Proof.Machine

theorem distanceRead_holds : effDistanceRead.Holds := by
  refine HostEffect.holds_of_hostCmd (fun r s => (rfl : exec _ s = execDistanceRead r s)) fun r s d _ h => ?_
  obtain ⟨htenant, hlen⟩ := Bool.and_eq_true_iff.1 h
  rw [needTenant_ok htenant, ok_bind, param_ok hlen]
  rfl

/-- The state of the distance unit after a sample is the one that the effect writes out (R95, R98). -/
theorem gnssFeed_holds : effGnssFeed.Holds := by
  refine HostEffect.holds_of_hostCmd (fun r s => (rfl : exec _ s = execGnssFeed r s)) fun r s d _ h => ?_
  simp only [effGnssFeed, Bool.and_eq_true, and_assoc] at h
  obtain ⟨hright, hsized, hbits, hspeed, hfix⟩ := h
  rw [needRight, need_ok hright, ok_bind, param_ok (by simp only [hsized, hbits, hspeed, hfix, Bool.and_self])]
  rfl

theorem counterAllocate_holds : effCounterAllocate.Holds := by
  refine HostEffect.holds_of_hostCmd (fun r s => (rfl : exec _ s = execCounterAllocate r s)) fun r s d _ h => ?_
  simp only [effCounterAllocate, Bool.and_eq_true, and_assoc] at h
  obtain ⟨hissuer, hsession, hrange, htenant, hknown, hfree⟩ := h
  rw [needOwner_ok (by rw [hissuer, hsession]; rfl), ok_bind]
  dsimp only
  rw [param_ok (by simp only [hrange, htenant, hknown, Bool.and_self]), ok_bind, param_ok hfree]
  rfl

theorem counterRelease_holds : effCounterRelease.Holds := by
  refine HostEffect.holds_of_hostCmd (fun r s => (rfl : exec _ s = execCounterRelease r s)) fun r s d _ h => ?_
  obtain ⟨hissuer, hrange⟩ := Bool.and_eq_true_iff.1 h
  rw [needOwner_ok hissuer, ok_bind, param_ok hrange]
  rfl

theorem needHolder_ok {r : Req} {d : Dev} (h : holds r d = true) : needHolder r d = .ok () := need_ok h

theorem counterRead_holds : effCounterRead.Holds := by
  refine HostEffect.holds_of_hostCmd (fun r s => (rfl : exec _ s = execCounterRead r s)) fun r s d _ h => ?_
  simp only [effCounterRead, Bool.and_eq_true, and_assoc] at h
  obtain ⟨hholder, hsized, hbits⟩ := h
  rw [needHolder_ok hholder, ok_bind, param_ok (by rw [hsized, hbits]; rfl)]
  rfl

/-- A value raised as a number is the word's sum. -/
theorem word_toNat_add (v w : Word) : word (v.toNat + w.toNat) = v + w := by
  apply BitVec.eq_of_toNat_eq
  rw [word, BitVec.toNat_ofNat, BitVec.toNat_add]

/-- Of the three limits the matching of the old value is asked only with its option; the value stays below 2^48 (R101, R102). -/
theorem counterIncrement_holds : effCounterIncrement.Holds := by
  refine HostEffect.holds_of_hostCmd (fun r s => (rfl : exec _ s = execCounterIncrement r s)) fun r s d _ h => ?_
  simp only [effCounterIncrement, Bool.and_eq_true, and_assoc, Bool.not_eq_true'] at h
  obtain ⟨hholder, hsized, hbits, hmin, hmax, hpending, hearlier, hmatch, hroom, htoken⟩ := h
  have hagrees : (!(bitOf (r.w 0) 47 && (counterAt d.time.counters (r.f 0 11 0)).value != r.w 2)) = true := by
    rw [← hmatch, Bool.not_and, bne, Bool.not_not]
  rw [needHolder_ok hholder, ok_bind]
  dsimp only
  rw [param_ok (by simp only [hsized, hbits, hmin, hmax, Bool.and_self]), ok_bind, hpending, hearlier, Bool.or_self,
    if_neg Bool.false_ne_true, need_ok hagrees, ok_bind, need_ok hroom, ok_bind, need_ok htoken, ok_bind, word_toNat_add]
  rfl

/-- Settles O13, a clause a row: each row's checks pass under its effect's conditions. -/
theorem distanceAndCountersComplete : Obligations.DistanceAndCountersComplete :=
  ⟨distanceRead_holds, gnssFeed_holds, counterAllocate_holds, counterRelease_holds, counterRead_holds, counterIncrement_holds⟩

end Sys2Proof.Machine
end

section
/-! PROOFS. TIME_READ, TIME_ADJUST, the authorisation commands, TIME_CONFIRM and TIME_ALARM_SET (R77-R88, R107, R114, R115, R118). -/
namespace Sys2Proof.Machine

theorem timeRead_holds : effTimeRead.Holds := by
  refine HostEffect.holds_of_hostCmd (fun r s => (rfl : exec _ s = execTimeRead r s)) fun r s d _ h => ?_
  obtain ⟨htenant, hlen⟩ := Bool.and_eq_true_iff.1 h
  rw [needTenant_ok htenant, ok_bind, param_ok hlen]
  rfl

theorem timeAllowed_ok {d : Dev} (h : timeOpen d = true) : timeAllowed d = .ok () := by
  simp only [timeOpen, Bool.and_eq_true, bne_iff_ne, and_assoc] at h
  obtain ⟨hsucc, hdeparted, hscorched⟩ := h
  exact need_ok (by simp [hsucc, hdeparted, hscorched])

/-- A commit of a new offset that is started is the effect's write. -/
theorem outcome_commitOffset (r : Req) (x : Int) (path : Nat) (confirm : Bool) (d : Dev) (s : State) :
    outcome r s (commitOffset r x path confirm d) = offsetWrite r x path confirm d s := rfl

/-- A step of zero is answered; any other one waits for no write and is committed as a leap second or an adjustment (R80, R81, R84). -/
theorem timeAdjust_holds : effTimeAdjust.Holds := by
  refine HostEffect.holds_of_hostCmd (fun r s => (rfl : exec _ s = execTimeAdjust r s)) fun r s d _ h => ?_
  simp only [effTimeAdjust, adjustOk, Bool.and_eq_true, and_assoc] at h
  obtain ⟨hissuer, hopen, hsized, hbits, hleap, hrange, hbudget, hfree⟩ := h
  have hparam : (r.sized 2 && onlyBits (r.w 1) [(0, 0)] && (!bitOf (r.w 1) 0 || (sInt (r.w 0)).natAbs == 4096)
      && offsetOk (sInt d.time.offset + sInt (r.w 0))) = true := by
    simp only [hsized, hbits, hleap, offsetOk, hrange, Bool.and_self]
  rw [need_ok hissuer, ok_bind, timeAllowed_ok hopen, ok_bind]
  dsimp only
  rw [param_ok hparam, ok_bind, need_ok hbudget, ok_bind]
  simp only [effTimeAdjust]
  split
  next => rfl
  next hstep =>
    have hnone : offsetPending d = false := by simpa [hstep] using hfree
    rw [hnone, if_neg Bool.false_ne_true, outcome_commitOffset]
    rfl

theorem timeAuthChallenge_holds : effTimeAuthChallenge.Holds := by
  refine HostEffect.holds_of_hostCmd (fun r s => (rfl : exec _ s = execTimeAuthChallenge r s)) fun r s d _ h => ?_
  obtain ⟨hissuer, hlen⟩ := Bool.and_eq_true_iff.1 h
  rw [need_ok hissuer, ok_bind, param_ok hlen]
  rfl

/-- An alarm at 0 is none; one that is not due waits behind the others (R118). -/
theorem timeAlarmSet_holds : effTimeAlarmSet.Holds := by
  refine HostEffect.holds_of_hostCmd (fun r s => (rfl : exec _ s = execTimeAlarmSet r s)) fun r s d _ h => ?_
  obtain ⟨htenant, hsized⟩ := Bool.and_eq_true_iff.1 h
  have hzero : ((r.w 0).toNat == 0) = (r.w 0 == 0) := by
    rw [Bool.eq_iff_iff, beq_iff_eq, beq_iff_eq, ← BitVec.toNat_inj]; rfl
  rw [needTenant_ok htenant, ok_bind, param_ok hsized, ok_bind]
  dsimp only
  rw [hzero]
  simp only [effTimeAlarmSet]
  split
  next => rfl
  next =>
    split
    next hdue => exact (if_pos (show (r.w 0).toNat ≤ d.now from hdue)).symm
    next hlater => exact (if_neg (show ¬ (r.w 0).toNat ≤ d.now from hlater)).symm

-- TIME_AUTH_ADJUST

/-- The device after a served TIME_AUTH_ADJUST whose operands are right, before the nonce goes: a block that is not good is AUTH_FAIL, a
good one answers a step of zero and starts the commit of any other (R84, R86, R88). -/
def authEnded (r : Req) (d : Dev) : Dev :=
  if !authOk d r then complete r St.authFail [] 0 d
  else if r.w 2 == 0 then conclude r St.ok [d.time.offset] 6 d
  else dropStaged r.id true { d with nvm := { d.nvm with
    writes := d.nvm.writes ++ [{ req := some r, effect := .offset (intWord (sInt d.time.offset + sInt (r.w 2))) 3 false r.tenant }] } }

theorem authEnded_cmds (r : Req) (d : Dev) : (authEnded r d).cmds = d.cmds := by
  unfold authEnded
  split
  · exact complete_cmds _ _ _ _ _
  · split
    · exact conclude_cmds _ _ _ _ _
    · rfl

/-- The block is judged on the device without the command; the command is then no longer among those that wait, so its nonce is used
up (R86-R88). -/
theorem timeAuthAdjust_holds : effTimeAuthAdjust.Holds := by
  intro r s hserved h
  change execTimeAuthAdjust r s = .next { s with dev := { authEnded r (taken r s.dev) with
    time := { (authEnded r (taken r s.dev)).time with nonce := none } } }
  simp only [effTimeAuthAdjust, Bool.and_eq_true, and_assoc, Bool.not_eq_true'] at h
  obtain ⟨hissuer, hsized, hpad, hrange, hpending, hengine, hidle, hgone⟩ := h
  obtain ⟨hheld, hop, -, hdeadline, hdims⟩ := id hserved
  rw [execTimeAuthAdjust, lift, if_pos ⟨hheld, hop⟩, serve_eq _ _ hserved]
  dsimp only
  generalize hended : settle r (taken r s.dev) _ = ended
  have hend : ended = authEnded r (taken r s.dev) := by
    rw [← hended, need_ok hissuer, ok_bind, param_ok (by rw [hsized, hpad]; rfl), ok_bind, hpending, if_neg Bool.false_ne_true,
      untilEngine, hengine, hidle, authEnded]
    simp only [Bool.not_true, Bool.false_eq_true, if_false, if_true]
    cases hgood : authOk (taken r s.dev) r with
    | false => rfl
    | true =>
      rw [need_true, ok_bind, param_ok (c := offsetOk _) hrange, ok_bind]
      simp only [Bool.not_true, Bool.false_eq_true, if_false]
      split
      · rfl
      · rfl
  have hwaits : ended.cmds.contains r = false := by
    rw [hend, authEnded_cmds, ← Bool.not_eq_true, List.contains_iff_mem]
    exact fun hr => bne_iff_ne.1 (List.all_eq_true.1 hgone r hr) rfl
  have hnamed : ((r.tenant == 1 || r.tenant == 0xFE) && decide (s.dev.now ≤ r.deadline) && (dims r s.dev).isOk) = true := by
    rw [hissuer, decide_eq_true hdeadline, ← dims_taken, dims_ok hdims]
    rfl
  rw [hwaits, hnamed, hend]
  rfl

-- TIME_CONFIRM

/-- The confirmation starts the commit of its offset, which is in range and waits for no other write (R84, R114). -/
theorem outcome_checkedCommit {r : Req} {s : State} {d : Dev} {x : Int} (path : Nat) (confirm : Bool) (hrange : offsetOk x = true)
    (hnone : offsetPending d = false) :
    outcome r s (param (offsetOk x) >>= fun _ => if offsetPending d then .ok (d, .wait) else commitOffset r x path confirm d)
      = offsetWrite r x path confirm d s := by
  rw [param_ok hrange, ok_bind, hnone]
  rfl

/-- With the time x ahead in range, the branches are those of the quality, of RC, of the apply option and of the sign of x (R79, R114, R115). -/
theorem timeConfirm_holds : effTimeConfirm.Holds := by
  refine HostEffect.holds_of_hostCmd (fun r s => (rfl : exec _ s = execTimeConfirm r s)) fun r s d hd h => ?_
  simp only [effTimeConfirm, Bool.and_eq_true, and_assoc, Bool.not_eq_true', decide_eq_true_eq] at h
  obtain ⟨hissuer, hopen, hsized, hbits, hmin, hmax, hrange, htick, hnone⟩ := h
  dsimp only [effTimeConfirm]
  generalize hx : legalAhead r d = x at *
  rw [need_ok hissuer, ok_bind, timeAllowed_ok hopen, ok_bind,
    show ((r.w 0).toNat : Int) - (d.now + sInt d.time.offset) = x from hx, param_ok (by rw [hsized, hbits]; rfl), ok_bind,
    param_ok (by rw [decide_eq_true hmin, decide_eq_true hmax]; rfl), ok_bind]
  have hoffset : offsetOk (sInt d.time.offset + x) = true := decide_eq_true hrange
  cases d.time.quality with
  | confirmed => rfl
  | unconfirmed =>
    dsimp only
    split
    next hreport => rfl
    next happly =>
      by_cases hrc : d.time.onRc = true
      · rw [if_pos hrc, need_bind_false (by rw [hrc]; rfl), outcome_rej, hd]
      · rw [if_neg hrc, need_ok (by simpa using hrc), ok_bind]
        rcases Int.lt_trichotomy x 0 with hback | rfl | hforward
        · rw [if_neg (Int.not_le.2 hback), if_pos hback, outcome_checkedCommit 2 true hoffset hnone]
        · rw [if_pos (Int.le_refl 0), if_neg (Int.lt_irrefl 0), param_ok (decide_eq_true (by omega)), ok_bind, if_pos (beq_self_eq_true _),
            if_pos (beq_self_eq_true _)]
          rfl
        · have hzero : ¬ (x == 0) = true := by rw [beq_iff_eq]; omega
          rw [if_pos (Int.le_of_lt hforward), if_neg (Int.not_lt.2 (Int.le_of_lt hforward)), param_ok (decide_eq_true (by omega)), ok_bind,
            if_neg hzero, if_neg hzero]
          rfl
  | uncertain =>
    dsimp only
    split
    next hwithin =>
      split
      next hexact => rfl
      next hoff =>
        cases bitOf (r.w 1) 0 with
        | false => rfl
        | true => rw [if_neg (by decide), if_pos rfl, outcome_checkedCommit 2 true hoffset hnone]
    next houtside =>
      split
      next happly => rw [outcome_rej, hd]
      next hreport => rfl

/-- Settles O12, a clause a row: each row's checks pass under its effect's conditions. -/
theorem timeCommandsComplete : Obligations.TimeCommandsComplete :=
  ⟨timeRead_holds, timeAdjust_holds, timeAuthChallenge_holds, timeAuthAdjust_holds, timeConfirm_holds, timeAlarmSet_holds⟩

end Sys2Proof.Machine
end

section
/-! PROOFS. LIFECYCLE_READ, LIFECYCLE_ADVANCE and OPTION_PROGRAM (R123-R129, R171, R172, R588). -/
namespace Sys2Proof.Machine

theorem lifecycleRead_holds : effLifecycleRead.Holds := by
  refine HostEffect.holds_of_hostCmd (fun r s => (rfl : exec _ s = execLifecycleRead r s)) fun r s d _ h => ?_
  obtain ⟨htenant, hlen⟩ := Bool.and_eq_true_iff.1 h
  rw [needTenant_ok htenant, ok_bind, param_ok hlen]
  rfl

theorem noSuccessionOrHandover_ok {d : Dev} (hsucc : (!(d.succ.state == 1 || d.succ.state == 2)) = true)
    (hover : d.fw.handover.isNone = true) : noSuccessionOrHandover d = .ok () :=
  need_ok (by rw [hsucc, hover]; rfl)

/-- A transition's programming step that does not end whole reports its bit, or its command waits (R120, R129). -/
theorem lifecycleAdvance_holds (fuse : FuseEnd) : (effLifecycleAdvance fuse).Holds := by
  refine HostEffect.holds_of_hostCmd (fun r s => (rfl : exec _ s = execLifecycleAdvance r fuse s)) fun r s d _ h => ?_
  simp only [effLifecycleAdvance, mayAdvance, Bool.and_eq_true, and_assoc] at h
  obtain ⟨hissuer, hsession, hsucc, hover, hsized, hnext, hnamed, hconfirm, hwindow, hreason⟩ := h
  rw [needOwner_ok (by rw [hissuer, hsession]; rfl), ok_bind, noSuccessionOrHandover_ok hsucc hover, ok_bind,
    param_ok (by rw [hsized, hnext, hnamed]; rfl), ok_bind, param_ok hconfirm, ok_bind, need_ok hwindow, ok_bind, need_ok hreason, ok_bind]
  cases fuse with
  | programmed => rfl
  | stuck copy bit => rfl
  | stopped copy bit => rfl

/-- The groups asked for are programmed up to the first that does not end whole, and its end is the command's (R129, R172). -/
theorem optionProgram_holds (fails : Option (Nat × FuseEnd)) : (effOptionProgram fails).Holds := by
  refine HostEffect.holds_of_hostCmd (fun r s => (rfl : exec _ s = execOptionProgram r fails s)) fun r s d _ h => ?_
  simp only [effOptionProgram, Bool.and_eq_true, and_assoc] at h
  obtain ⟨hissuer, hsession, hsucc, hover, hsized, hgroups, hword, hconfirm, hfresh, hwindow, hreason⟩ := h
  rw [needOwner_ok (by rw [hissuer, hsession]; rfl), ok_bind, noSuccessionOrHandover_ok hsucc hover, ok_bind]
  dsimp only
  rw [param_ok (by rw [hsized, hgroups, hword, hconfirm, hfresh]; rfl), ok_bind, need_ok hwindow, ok_bind, need_ok hreason, ok_bind]
  simp only [effOptionProgram]
  generalize blowOptions fails (optionOrder (r.f 0 3 0)) d = blown
  obtain ⟨x, fuse⟩ := blown
  cases fuse with
  | programmed => rfl
  | stuck copy bit => rfl
  | stopped copy bit => rfl

/-- Settles O3, a clause a row: each row's checks pass under its effect's conditions, and a programming step has its three ends. -/
theorem lifecycleCommandsComplete : Obligations.LifecycleCommandsComplete :=
  ⟨lifecycleRead_holds, lifecycleAdvance_holds, optionProgram_holds⟩

end Sys2Proof.Machine
end

section
/-! PROOFS. A field alone in a word: the bits below it are clear (R7, R10). -/
namespace Sys2Proof.Machine

theorem bitOf_eq_testBit (w : Word) (i : Nat) : bitOf w i = w.toNat.testBit i := by
  rw [bitOf, Nat.testBit_eq_decide_div_mod_eq]
  rfl

theorem mkWord_single_toNat (hi lo v : Nat) : (mkWord [(hi, lo, v)]).toNat = v % 2 ^ (hi + 1 - lo) * 2 ^ lo % 2 ^ 48 := by
  simp [mkWord]

theorem bitOf_below_onlyBits {w : Word} {hi lo b : Nat} (h : onlyBits w [(hi, lo)] = true) (hb : b < lo) : bitOf w b = false := by
  have hw : w = mkWord [(hi, lo, fld w hi lo)] := eq_of_beq h
  rw [hw, bitOf_eq_testBit, mkWord_single_toNat, Nat.testBit_mod_two_pow, Nat.testBit_mul_two_pow]
  simp [Nat.not_le.2 hb]

/-- A clear bit may be listed as a field. -/
theorem onlyBits_withClearBit {w : Word} {hi lo b : Nat} (h : onlyBits w [(hi, lo)] = true) (hb : bitOf w b = false) :
    onlyBits w [(hi, lo), (b, b)] = true := by
  have hclear : fld w b b = 0 := by
    have hodd : w.toNat / 2 ^ b % 2 ≠ 1 := by simpa [bitOf] using hb
    simp only [fld, Nat.add_sub_cancel_left, Nat.pow_one]
    omega
  simpa [onlyBits, mkWord, hclear] using h

end Sys2Proof.Machine
end

section
/-! PROOFS. Host commands that may restart the device or settle a power state that waited: what a served one comes to (R222, R619). -/
namespace Sys2Proof.Machine

/-- The outcome of a restart command from the result of its checks and body: with a restart the rings are empty. -/
def restartOutcome (r : Req) (s : State) : Res (Dev × Bool) → Out
  | .error e => .next { s with dev := refuse r e (taken r s.dev) }
  | .ok (x, restarted) => .next { s with dev := x, flow := if restarted then {} else s.flow }

/-- A served restart command is its issuer check and then its body, over the device without the command. -/
theorem restartCmd_eq {op : Nat} {r : Req} {issuer : Dev → Res Unit} {body : Dev → Res (Dev × Bool)} {s : State}
    (hserved : Served op r s.dev) :
    restartCmd op r issuer body s = restartOutcome r s (issuer (taken r s.dev) >>= fun _ => body (taken r s.dev)) := by
  obtain ⟨hheld, hop, hgo, hdeadline, hdims⟩ := hserved
  have htakes : r ∈ s.dev.cmds ∧ r.opcode.toNat = op := ⟨hheld, hop⟩
  have hlate : ¬ r.deadline < (taken r s.dev).now := Nat.not_lt.2 hdeadline
  have hpass := dims_ok hdims
  unfold taken at hlate hpass
  simp only [restartCmd, liftR, htakes, and_self, if_true, hgo, Bool.false_eq_true, if_false, if_neg hlate, hpass, ok_bind, taken]
  cases issuer _ with
  | error e => rfl
  | ok _ =>
    rw [ok_bind]
    cases body _ with
    | error e => rfl
    | ok x => rfl

/-- A row that is a restart command has its effect when, under the effect's conditions, its issuer check and body come to that effect. -/
theorem HostEffect.holds_of_restartCmd {e : HostEffect} {issuer : Req → Dev → Res Unit} {body : Req → Dev → Res (Dev × Bool)}
    (hexec : ∀ r s, exec (e.row r) s = restartCmd e.op r (issuer r) (body r) s)
    (hbody : ∀ r s d, taken r s.dev = d → e.pre r d = true →
      restartOutcome r s (issuer r d >>= fun _ => body r d) = e.out r d s) : e.Holds := by
  intro r s hserved hpre
  rw [hexec, restartCmd_eq hserved]
  exact hbody r s _ rfl hpre

/-- The outcome of a command after which a power state that waited may follow: a reply is settled (R619). -/
def settleOutcome (r : Req) (s : State) : Res (Dev × Done) → Out
  | .error e => .next { s with dev := refuse r e (taken r s.dev) }
  | .ok (x, .reply st ws n) => settles st r ws n x s
  | .ok (x, .final g ws n) => settles St.ok { r with gen := g } ws n x s
  | .ok (x, .later) => goesOn r x s
  | .ok (x, .wait) => waits r x s

theorem settleCmd_eq {op : Nat} {r : Req} {issuer : Dev → Res Unit} {body : Dev → Res (Dev × Done)} {s : State}
    (hserved : Served op r s.dev) :
    settleCmd op r issuer body s = settleOutcome r s (issuer (taken r s.dev) >>= fun _ => body (taken r s.dev)) := by
  rw [settleCmd, restartCmd_eq hserved]
  cases issuer _ with
  | error e => rfl
  | ok _ =>
    rw [ok_bind, ok_bind]
    cases body _ with
    | error e => rfl
    | ok p =>
      obtain ⟨x, done⟩ := p
      cases done with
      | reply st ws n => rfl
      | final g ws n => rfl
      | later => rfl
      | wait => rfl

/-- The same for a row that settles a power state. -/
theorem HostEffect.holds_of_settleCmd {e : HostEffect} {issuer : Req → Dev → Res Unit} {body : Req → Dev → Res (Dev × Done)}
    (hexec : ∀ r s, exec (e.row r) s = settleCmd e.op r (issuer r) (body r) s)
    (hbody : ∀ r s d, taken r s.dev = d → e.pre r d = true →
      settleOutcome r s (issuer r d >>= fun _ => body r d) = e.out r d s) : e.Holds := by
  intro r s hserved hpre
  rw [hexec, settleCmd_eq hserved]
  exact hbody r s _ rfl hpre

end Sys2Proof.Machine
end

section
/-! PROOFS. BOOT_PUSH, staging, loading, handover, version commit, restart and log (R148, R149, R222, R583-R606). -/
namespace Sys2Proof.Machine

theorem needAdmin_ok {r : Req} (hissuer : (r.tenant == 0) = true) (hadmin : r.admin = true) : needAdmin r = .ok () :=
  need_ok (by rw [hissuer, hadmin]; rfl)

/-- A refusal that is no policy refusal completes with its status alone. -/
theorem outcome_rej_plain {st : Byte} (r : Req) (s : State) (n : Nat) (h : St.isPolicy st = false) :
    outcome r s (rej st n) = refused st r (taken r s.dev) s := by
  rw [outcome_rej, refuseWith, h]
  rfl

/-- A chunk within the push's limit that does not end its bundle is laid into the push (R149). -/
theorem pushChunk_laid {src : Nat} {r : Req} {d : Dev} (hmore : bitOf (r.w 0) 47 = false)
    (hroom : r.f 0 31 0 + (r.words.length - 1) ≤ pushLimit (pushHeaded r d) (overlay (r.f 0 31 0) (r.words.drop 1) d.boot.push)) :
    pushChunk src (r.w 0) (r.words.drop 1) d = (St.ok, false, pushLaid r d) := by
  unfold pushLaid
  unfold pushHeaded at hroom ⊢
  rw [← List.length_drop] at hroom ⊢
  refine (if_neg (Nat.not_lt.2 hroom)).trans (if_pos ?_)
  rw [hmore]
  rfl

/-- The device after a chunk that came to p: answered, and with the bundle's firmware started when the chunk completed it. -/
def pushEnded (r : Req) (src : Nat) (p : Byte × Bool × Dev) : Dev :=
  let x := complete r p.1 [] 0 p.2.2
  if p.2.1 then startFirmware src p.2.2.boot.push x else x

theorem bootPush_takes : BootPushTakes := by
  intro r s hheld hop hrom hwaits hform hroom
  simp only [Bool.and_eq_true, Bool.not_eq_true', decide_eq_true_eq, and_assoc] at hform
  obtain ⟨hsized, hbits, hmin, hmax, hmore⟩ := hform
  have hserved : r ∈ s.dev.cmds ∧ r.opcode = 0x0D00 ∧ (!romHalted s.dev) = true := ⟨hheld, hop, by rw [hrom]; rfl⟩
  have hsource : ¬ (s.dev.boot.progress != 0x05 && s.dev.boot.progress != 0x0C) = true := by
    obtain hhost | hrecovery := hwaits
    · rw [hhost]; decide
    · rw [hrecovery]; decide
  have hpayload : ¬ (!(r.sized (r.words.length - 1 + 1) && onlyBits (r.w 0) [(47, 47), (31, 0)] && decide (1 ≤ r.words.length - 1)
      && decide (r.words.length - 1 ≤ 10921))) = true := by
    rw [Nat.sub_add_cancel (by omega), hsized, hbits, decide_eq_true (by omega), decide_eq_true (by omega)]
    decide
  refine congrArg (fun d : Dev => Host.Outcome.next { s with dev := d }) ((if_pos hserved).trans
    ((if_neg hsource).trans ((if_neg hpayload).trans ?_)))
  change pushEnded r _ (pushChunk _ (r.w 0) (r.words.drop 1) (taken r s.dev)) = _
  rw [pushChunk_laid (d := taken r s.dev) hmore hroom]
  rfl

theorem outcome_startLong (r : Req) (s : State) (kind total : Nat) (data : LongData) (extra : List Word) (d : Dev) :
    outcome r s (startLong r kind total data extra d) = accepts r kind total data extra d s := rfl

theorem fwStageOpen_holds : effFwStageOpen.Holds := by
  refine HostEffect.holds_of_hostCmd (fun r s => (rfl : exec _ s = execFwStageOpen r s)) fun r s d _ h => ?_
  simp only [effFwStageOpen, Bool.and_eq_true, and_assoc] at h
  obtain ⟨hissuer, hadmin, hsized, hbits, hmin, hmax, hslot, hadopted, hover, hidle⟩ := h
  rw [needAdmin_ok hissuer hadmin, ok_bind]
  dsimp only
  rw [param_ok (by rw [hsized, hbits, hmin, hmax]; rfl), ok_bind, param_ok hslot, ok_bind, need_ok (by rw [hadopted, hover, hidle]; rfl),
    ok_bind, outcome_startLong]
  rfl

/-- What a chunk of the live staging passes of its checks. -/
theorem stageChunk_some {r : Req} {d : Dev} {l : LongOp} {x : StageState} (h : stageChunk r d = some (l, x)) :
    needLong r (r.f 0 23 0) 3 d = .ok l ∧ d.fw.stage = some x ∧ longRunning l = true
      ∧ (x.handle == l.handle && r.f 1 31 0 == x.words.length) = true := by
  unfold stageChunk at h
  split at h
  next hlong hstage =>
    split at h
    next hlive =>
      injection h with h
      injection h with hl hx
      subst hl hx
      rw [Bool.and_assoc, Bool.and_eq_true] at hlive
      exact ⟨hlong, hstage, hlive.1, hlive.2⟩
    next => cases h
  next => cases h

/-- What a chunk of a live staging comes to by its content: the check it fails, the flash that cannot be reached, or the words it adds
(R583-R586, R603). -/
def stageJudged (r : Req) (l : LongOp) (x : StageState) (d : Dev) : Res (Dev × Done) :=
  let ws := x.words ++ r.words.drop 2
  match stageCheck d x.target x.words.length ws (bitOf (r.w 0) 24) with
  | some st => .ok (flushOwed (finishLong l.handle .failed st d), .reply st [] 0)
  | none =>
    if x.slot != 0 && !flashReachable d then .ok (finishLong l.handle .failed St.internalFault d, .reply St.internalFault [] 0)
    else
      let e := modLong l.handle (fun l => { l with units := l.units + 1 }) d
      let e := { e with fw := { e.fw with stage := some { x with words := ws } } }
      let e := if x.slot = 0 then e
        else issueWrites (flashSequence (slotAddress x.slot).toNat (max 4096 (6 * x.words.length)) (6 * ws.length))
          (setSlotWords x.slot (eraseSector (overSlot ws (slotWords e x.slot))) e)
      okWords (flushOwed (if bitOf (r.w 0) 24 then stageDone x ws e else suspensionPoint l.handle e)) [word ws.length]

/-- A chunk that is well formed and of the live staging is judged by its content. -/
theorem exec_fwStageChunk {r : Req} {s : State} {l : LongOp} {x : StageState} (hserved : Served 0x0D02 r s.dev)
    (hissuer : (r.tenant == 0) = true) (hadmin : r.admin = true)
    (hform : (r.sized r.words.length && r.sizedMin 2 && onlyBits (r.w 0) [(24, 24), (23, 0)] && onlyBits (r.w 1) [(31, 0)]) = true)
    (hchunk : stageChunk r (taken r s.dev) = some (l, x)) :
    exec (.fwStageChunk r true) s = outcome r s (stageJudged r l x (taken r s.dev)) := by
  obtain ⟨hlong, hstage, hruns, hplace⟩ := stageChunk_some hchunk
  change execFwStageChunk r true s = _
  rw [execFwStageChunk, hostCmd_eq hserved, needAdmin_ok hissuer hadmin, ok_bind, param_ok hform, ok_bind, hlong, ok_bind,
    param_ok hruns, ok_bind, hstage]
  dsimp only
  rw [param_ok hplace]
  rfl

theorem fwStageChunk_holds : effFwStageChunk.Holds := by
  intro r s hserved h
  simp only [effFwStageChunk, Bool.and_eq_true, and_assoc] at h ⊢
  obtain ⟨hissuer, hadmin, hsized, hmin, hbits0, hbits1, hany⟩ := h
  obtain ⟨⟨l, x⟩, hchunk, hpass⟩ := (Option.any_eq_true _ _).1 hany
  simp only [Bool.and_eq_true, Option.isNone_iff_eq_none] at hpass
  obtain ⟨hflash, hcheck⟩ := hpass
  have hreach : (x.slot != 0 && !flashReachable (taken r s.dev)) = false := by
    rw [bne, ← Bool.not_or, hflash]
    rfl
  rw [exec_fwStageChunk hserved hissuer hadmin (by rw [hsized, hmin, hbits0, hbits1]; rfl) hchunk, stageJudged, hcheck, hchunk, hreach]
  rfl

theorem fwStageRefused_holds : effFwStageRefused.Holds := by
  intro r s hserved h
  simp only [effFwStageRefused, Bool.and_eq_true, and_assoc] at h ⊢
  obtain ⟨hissuer, hadmin, hsized, hmin, hbits0, hbits1, hany⟩ := h
  obtain ⟨⟨l, x⟩, hchunk, hfails⟩ := (Option.any_eq_true _ _).1 hany
  obtain ⟨st, hcheck⟩ := Option.isSome_iff_exists.1 hfails
  rw [exec_fwStageChunk hserved hissuer hadmin (by rw [hsized, hmin, hbits0, hbits1]; rfl) hchunk, stageJudged, hcheck, hchunk]
  dsimp only
  rw [hcheck]
  rfl

/-- A first chunk that is not the last takes the place of what was loaded. -/
theorem fwLoad_holds : effFwLoad.Holds := by
  refine HostEffect.holds_of_hostCmd (fun r s => (rfl : exec _ s = execFwLoad r s)) fun r s d _ h => ?_
  simp only [effFwLoad, Bool.and_eq_true, and_assoc] at h
  obtain ⟨hissuer, hadmin, hsized, hlen, hbits0, hbits1, hmin, hmax, hover, hstart, hany⟩ := h
  obtain ⟨x, hlive, hstaged⟩ := (Option.any_eq_true _ _).1 hany
  obtain ⟨hslot, hentry⟩ := Bool.and_eq_true_iff.1 hstaged
  obtain ⟨e, hfound, hroom⟩ := (Option.any_eq_true _ _).1 hentry
  have hmore : bitOf (r.w 0) 24 = false := bitOf_below_onlyBits hbits0 (by decide)
  have hfirst : r.f 1 31 0 = 0 := by rw [Req.f, eq_of_beq hstart]; rfl
  have hhost : ¬ (x.slot != 0) = true := by rw [eq_of_beq hslot]; decide
  rw [needAdmin_ok hissuer hadmin, ok_bind]
  dsimp only
  rw [param_ok (by rw [hsized, hlen, onlyBits_withClearBit hbits0 hmore, hbits1]; rfl), ok_bind,
    param_ok (by rw [hmin, hmax]; rfl), ok_bind, hlive]
  dsimp only
  rw [hfound]
  dsimp only
  rw [need_ok hover, ok_bind, if_neg hhost, hfirst]
  simp only [bne_self_eq_false, Bool.and_false, Bool.false_eq_true, if_false]
  split
  all_goals
    rw [param_ok (by rw [List.nil_append, List.length_drop, hroom]; rfl), ok_bind, hmore, List.nil_append, List.length_drop]
    rfl

theorem fwHandover_holds : effFwHandover.Holds := by
  refine HostEffect.holds_of_hostCmd (fun r s => (rfl : exec _ s = execFwHandover r s)) fun r s d _ h => ?_
  simp only [effFwHandover, Bool.and_eq_true, and_assoc] at h
  obtain ⟨hissuer, hadmin, hsized, hbits, hlive, hany, hover, hout, hin⟩ := h
  obtain ⟨x, hx⟩ := Option.isSome_iff_exists.1 hlive
  obtain ⟨⟨t, ws, whole⟩, hloaded, hwhole⟩ := (Option.any_eq_true _ _).1 hany
  obtain ⟨htype, rfl⟩ := Bool.and_eq_true_iff.1 hwhole
  rw [needAdmin_ok hissuer hadmin, ok_bind]
  dsimp only
  rw [param_ok (by rw [hsized, hbits]; rfl), ok_bind, hx, hloaded]
  dsimp only
  rw [param_ok htype, ok_bind, need_ok (by rw [hover, hout, hin]; rfl), ok_bind]
  simp only [effFwHandover, hx, hloaded, Option.getD_some]
  rfl

theorem fwStatus_holds : effFwStatus.Holds := by
  refine HostEffect.holds_of_hostCmd (fun r s => (rfl : exec _ s = execFwStatus r s)) fun r s d _ h => ?_
  simp only [effFwStatus, Bool.and_eq_true, and_assoc] at h
  obtain ⟨hissuer, hadmin, hlen⟩ := h
  rw [needAdmin_ok hissuer hadmin, ok_bind, param_ok hlen]
  rfl

theorem logRead_holds : effLogRead.Holds := by
  refine HostEffect.holds_of_hostCmd (fun r s => (rfl : exec _ s = execLogRead r s)) fun r s d _ h => ?_
  simp only [effLogRead, Bool.and_eq_true, and_assoc] at h
  obtain ⟨hissuer, hadmin, hsized, hbits, hlimit⟩ := h
  rw [needAdmin_ok hissuer hadmin, ok_bind]
  dsimp only
  rw [param_ok (by rw [hsized, hbits, hlimit]; rfl)]
  rfl

theorem fwRestart_holds : effFwRestart.Holds := by
  refine HostEffect.holds_of_restartCmd (fun r s => (rfl : exec _ s = execFwRestart r s)) fun r s d _ h => ?_
  simp only [effFwRestart, Bool.and_eq_true, and_assoc] at h
  obtain ⟨hissuer, hadmin, hlen⟩ := h
  rw [needAdmin_ok hissuer hadmin, ok_bind, param_ok hlen]
  rfl

/-- The minor version that a commit of a bundle under the current major one records (R600). -/
theorem raised_eq_max (a b : Nat) : (if decide (a < b) = true then b else a) = max a b := by
  by_cases h : a < b
  · rw [if_pos (decide_eq_true h), Nat.max_eq_right (Nat.le_of_lt h)]
  · rw [if_neg (by simpa using h), Nat.max_eq_left (Nat.not_lt.1 h)]

/-- The major version rises by its fuse step or stays; either way the fallback bundle may not be below the new versions. -/
theorem fwVersionCommit_holds (fuse : FuseEnd) : (effFwVersionCommit fuse).Holds := by
  refine HostEffect.holds_of_hostCmd (fun r s => (rfl : exec _ s = execFwVersionCommit r fuse s)) fun r s d hd h => ?_
  simp only [effFwVersionCommit, Bool.and_eq_true, and_assoc] at h
  obtain ⟨hissuer, hadmin, hlen, hlive, hcurrent, hcommitted, hwindow⟩ := h
  rw [needAdmin_ok hissuer hadmin, ok_bind, param_ok (by rw [hlen, hlive]; rfl), ok_bind]
  dsimp only [effFwVersionCommit]
  by_cases hrises : d.secVersion < bMajor (committedHeader d)
  · simp only [decide_eq_true hrises, Bool.true_or, if_true, Bool.not_true, Bool.false_or, Bool.true_and]
    rw [if_pos hrises, param_ok hcommitted, ok_bind]
    cases hallowed : fallbackValid d && notBelow d.fw.fallback (bMajor (committedHeader d)) (bMinor (committedHeader d)) with
    | false => rw [need_bind_false rfl, outcome_rej_plain r s _ rfl, hd]; rfl
    | true =>
      have hfuse : fuseWindow d = true := by
        obtain hstays | hfuse := Bool.or_eq_true_iff.1 hwindow
        · exact absurd hrises (Nat.not_lt.2 (of_decide_eq_true hstays))
        · exact hfuse
      rw [need_true, ok_bind, need_ok hfuse, ok_bind]
      cases fuse with
      | programmed => rfl
      | stuck copy bit => rfl
      | stopped copy bit => rfl
  · simp only [decide_eq_false hrises, Bool.false_or, Bool.false_eq_true, if_false, Bool.not_false, Bool.true_or, Bool.false_and]
    rw [if_neg hrises, param_ok hcurrent, ok_bind, raised_eq_max]
    cases hallowed : fallbackValid d && notBelow d.fw.fallback d.secVersion (max d.boot.secMinor (bMinor (committedHeader d))) with
    | false => rw [need_bind_false rfl, outcome_rej_plain r s _ rfl, hd]; rfl
    | true => rw [need_true, ok_bind, need_true]; rfl

/-- Settles O17, a clause a row: each row's checks pass under its effect's conditions; both ends of a staging chunk are its judgement
by content. -/
theorem firmwareCommandsComplete : Obligations.FirmwareCommandsComplete :=
  ⟨bootPush_takes, fwStageOpen_holds, fwStageChunk_holds, fwStageRefused_holds, fwLoad_holds, fwHandover_holds, fwVersionCommit_holds,
    fwStatus_holds, fwRestart_holds, logRead_holds⟩

end Sys2Proof.Machine
end

section
/-! PROOFS. Succession, outgoing role (R129, R633-R641). -/
namespace Sys2Proof.Machine

theorem byAdmin_ok {r : Req} (h : byAdmin r = true) : needAdmin r = .ok () := need_ok h

theorem needField_ok {d : Dev} (h : (d.lifecycle == .field) = true) : needField d = .ok () := by
  have hfield : d.lifecycle = .field := eq_of_beq h
  rw [needField, hfield]
  rfl

theorem needOutgoing_ok {d : Dev} (h : (d.succ.state == 1) = true) : needOutgoing d = .ok () := need_ok h

/-- A device that is ready to sign has its key. -/
theorem needSigner_ok {d : Dev} (h : signerReady d = true) : needSigner d = .ok (d.att.key.getD {}) := by
  obtain ⟨hdraws, hkey⟩ := Bool.and_eq_true_iff.1 h
  obtain ⟨k, hk⟩ := Option.isSome_iff_exists.1 hkey
  rw [needSigner, need_ok hdraws, ok_bind, hk]
  rfl

@[simp] theorem drawBytes_serial (n : Nat) (d : Dev) : (drawBytes n d).2.serial = d.serial := by rw [drawBytes_spends]; rfl

@[simp] theorem drawBytes_att (n : Nat) (d : Dev) : (drawBytes n d).2.att = d.att := by rw [drawBytes_spends]; rfl

/-- A signature leaves the device's keys and certificates. -/
@[simp] theorem signBlock_att (k : DeviceKey) (tag : List Byte) (ws : List Word) (d : Dev) : (signBlock k tag ws d).2.att = d.att := by
  obtain ⟨w, hspends⟩ := makeSignature_spends 2 k.ecPrivate (sha384 (tag ++ wordsBytes ws)) 0 d
  change (makeSignature 2 k.ecPrivate (sha384 (tag ++ wordsBytes ws)) 0 d).2.att = d.att
  rw [hspends]
  rfl

theorem succChallenge_holds : effSuccChallenge.Holds := by
  refine HostEffect.holds_of_hostCmd (fun r s => (rfl : exec _ s = execSuccChallenge r s)) fun r s d _ h => ?_
  simp only [effSuccChallenge, Bool.and_eq_true, and_assoc] at h
  obtain ⟨hadmin, hfield, hlen, hidle, hrandom⟩ := h
  rw [byAdmin_ok hadmin, ok_bind, needField_ok hfield, ok_bind, param_ok hlen, ok_bind, need_ok hidle, ok_bind, need_ok hrandom, ok_bind]
  rfl

/-- The certificate in SUCC_BEGIN's payload. -/
def offeredCert (r : Req) : List Byte := (r.bytesFrom 341 (r.len - 6 * 341)).take (derLength (r.bytesFrom 341 (r.len - 6 * 341)))

theorem succBegin_out_ok {r : Req} {d : Dev} {u : Unit} (s : State)
    (h : checkOffer d (r.words.take 227) (slice r.words 227 114) (offeredCert r) = .ok u) : effSuccBegin.out r d s = handoff r d s := by
  unfold offeredCert at h
  simp only [effSuccBegin, h]

theorem succBegin_out_error {r : Req} {d : Dev} {e : Rej} (s : State)
    (h : checkOffer d (r.words.take 227) (slice r.words 227 114) (offeredCert r) = .error e) :
    effSuccBegin.out r d s = .next { s with dev := refuse r e d } := by
  unfold offeredCert at h
  simp only [effSuccBegin, h]

/-- Past the checks of the device the offer's decide. The package's draws, encapsulation and signature are split one by one and stay
unevaluated: the handoff is made of the same ones, and none of them touches the serial number or the certificate that it carries. -/
theorem succBegin_holds : effSuccBegin.Holds := by
  refine HostEffect.holds_of_hostCmd (fun r s => (rfl : exec _ s = execSuccBegin r s)) fun r s d hd h => ?_
  simp only [effSuccBegin, Bool.and_eq_true, and_assoc] at h
  obtain ⟨hadmin, hfield, hmin, hmax, hidle, hnocommit, hold, hover, hsigner, hengine, hwrites, hfits⟩ := h
  have hgo : (!d.nvm.writes.isEmpty || !engineIdle d) = false := by rw [hwrites, hengine]; rfl
  have hserial : (drawBytes 56 (drawBytes 32 d).2).2.serial = d.serial := by rw [drawBytes_serial, drawBytes_serial]
  rw [byAdmin_ok hadmin, ok_bind, needField_ok hfield, ok_bind]
  extract_lets cert offer pkg
  rw [param_ok (by rw [hmin, hmax]; rfl), ok_bind, need_ok (by rw [hidle, hnocommit, hold]; rfl), ok_bind, needNoHandover, need_ok hover,
    ok_bind, needSigner_ok hsigner, ok_bind]
  cases hcheck : checkOffer d offer (slice r.words 227 114) (cert.take (derLength cert)) with
  | error e =>
    rw [succBegin_out_error s hcheck, ← hd]
    rfl
  | ok u =>
    rw [ok_bind, hgo, if_neg Bool.false_ne_true, param_ok hfits, ok_bind, succBegin_out_ok s hcheck]
    split
    next m d1 hdraw =>
    obtain ⟨rfl, rfl⟩ := Prod.ext_iff.1 hdraw
    split
    next ct ss hencaps =>
    obtain ⟨rfl, rfl⟩ := Prod.ext_iff.1 hencaps
    split
    next b d2 hdraw2 =>
    obtain ⟨rfl, rfl⟩ := Prod.ext_iff.1 hdraw2
    rw [hserial]
    extract_lets eph x keys e cipher digest body
    split
    next sig d3 hsign =>
    obtain ⟨rfl, rfl⟩ := Prod.ext_iff.1 hsign
    extract_lets sent own
    have hown : own = d.att.cert0.getD [] :=
      congrArg (·.cert0.getD []) ((signBlock_att _ _ _ _).trans ((drawBytes_att _ _).trans (drawBytes_att _ _)))
    rw [hown]
    subst own sent body digest cipher e keys x eph offer pkg cert
    rfl

theorem succPackageRead_holds : effSuccPackageRead.Holds := by
  refine HostEffect.holds_of_hostCmd (fun r s => (rfl : exec _ s = execSuccPackageRead r s)) fun r s d _ h => ?_
  simp only [effSuccPackageRead, Bool.and_eq_true, and_assoc] at h
  obtain ⟨hadmin, hrole, hsized, hrange, hroom⟩ := h
  rw [byAdmin_ok hadmin, ok_bind, needOutgoing_ok hrole, ok_bind]
  dsimp only
  rw [param_ok (by rw [hsized, hrange, hroom]; rfl)]
  rfl

/-- The shared body of SUCCESSION_TRANSIT and SUCCESSION_INHERIT answers the conversion (R637, R643). -/
theorem outcome_convertBody {r : Req} {d : Dev} (s : State) (f : List Word → Dev → Res (List Word × Dev)) (h : convertOk r d = true) :
    outcome r s (convertBody r f d) = converts r f d s := by
  simp only [convertOk, Bool.and_eq_true, and_assoc] at h
  obtain ⟨hsized, hbits, hmin, hmax, hrandom⟩ := h
  rw [convertBody]
  dsimp only
  rw [param_ok (by rw [hsized, hbits, hmin, hmax]; rfl), ok_bind, need_ok hrandom, ok_bind]
  rfl

theorem successionTransit_holds : effSuccessionTransit.Holds := by
  refine HostEffect.holds_of_hostCmd (fun r s => (rfl : exec _ s = execSuccessionTransit r s)) fun r s d _ h => ?_
  simp only [effSuccessionTransit, Bool.and_eq_true, and_assoc] at h
  obtain ⟨htenant, hrole, hconvert⟩ := h
  rw [needTenant_ok htenant, ok_bind, needOutgoing_ok hrole, ok_bind, outcome_convertBody s _ hconvert]
  rfl

/-- A bad acknowledgement is AUTH_FAIL; a good one programs the group, whose three ends are the command's (R129, R639). -/
theorem succCommit_holds (fuse : FuseEnd) : (effSuccCommit fuse).Holds := by
  refine HostEffect.holds_of_settleCmd (fun r s => (rfl : exec _ s = execSuccCommit r fuse s)) fun r s d hd h => ?_
  simp only [effSuccCommit, Bool.and_eq_true, and_assoc] at h
  obtain ⟨hadmin, hrole, hsized, hsummary, hwindow, hfresh, hsigner, hengine⟩ := h
  rw [byAdmin_ok hadmin, ok_bind, needOutgoing_ok hrole, ok_bind, param_ok hsized, ok_bind,
    need_ok (by rw [hsummary, hwindow, hfresh]; rfl), ok_bind, needSigner_ok hsigner, ok_bind]
  cases hack : ackOk d r.words with
  | false =>
    rw [need_bind_false rfl, ← hd]
    exact (if_pos (by rw [hd, hack]; rfl)).symm
  | true =>
    rw [need_true, ok_bind, hengine]
    refine Eq.trans ?_ (if_neg (by rw [hack]; decide)).symm
    cases fuse with
    | programmed => rfl
    | stuck copy bit => rfl
    | stopped copy bit => rfl

theorem succDepartureRead_holds : effSuccDepartureRead.Holds := by
  refine HostEffect.holds_of_hostCmd (fun r s => (rfl : exec _ s = execSuccDepartureRead r s)) fun r s d _ h => ?_
  simp only [effSuccDepartureRead, Bool.and_eq_true, and_assoc] at h
  obtain ⟨hadmin, hdeparted, hlen, hsigner, hengine⟩ := h
  have hstate : decide (d.lifecycle = .departed) = true := decide_eq_true (eq_of_beq hdeparted)
  rw [byAdmin_ok hadmin, ok_bind, need_ok hstate, ok_bind, param_ok hlen, ok_bind, needSigner_ok hsigner, ok_bind, hengine]
  rfl

/-- Settles O21, a clause a row: each row's checks pass under its effect's conditions. -/
theorem outgoingSuccessionComplete : Obligations.OutgoingSuccessionComplete :=
  ⟨succChallenge_holds, succBegin_holds, succPackageRead_holds, successionTransit_holds, succCommit_holds, succDepartureRead_holds⟩

end Sys2Proof.Machine
end

section
/-! PROOFS. Watchdogs and protection faults (R140, R141, R160, R576, R577, R593, R594, R623, R680, R694). -/
namespace Sys2Proof.Machine

/-- The watchdog of a core that is neither halted nor adopting a new image has run out. -/
def lapses (c : CoreId) (since served : Nat) (d : Dev) : Bool :=
  powered d && d.boot.progress != 0 && !coreHalted c d && (adopting c d).isNone && decide (since ≤ served) && decide (served + 410 ≤ d.now)

/-- A watchdog does not act: paused, replaced by the handover monitor, or not run out (R141, R593, R694). -/
def watchdogSilent (c : CoreId) (since served : Nat) (d : Dev) : Bool :=
  coreHalted c d || (adopting c d).isSome || !watchdogOut since served d

theorem not_silent_of_lapses {c : CoreId} {since served : Nat} {d : Dev} (h : lapses c since served d = true) :
    watchdogSilent c since served d = false := by
  simp only [lapses, Bool.and_eq_true, and_assoc, Bool.not_eq_true', Option.isNone_iff_eq_none] at h
  obtain ⟨hpowered, hup, hgoes, hown, hsince, hlate⟩ := h
  have hout : watchdogOut since served d = true :=
    Bool.and_eq_true_iff.2 ⟨Bool.and_eq_true_iff.2 ⟨Bool.and_eq_true_iff.2 ⟨hpowered, hup⟩, hsince⟩, hlate⟩
  rw [watchdogSilent, hgoes, hown, hout]
  rfl

theorem silent_of_pausedOrEarly {c : CoreId} {since served : Nat} {d : Dev}
    (h : coreHalted c d = true ∨ (adopting c d).isSome = true ∨ d.now < served + 410) : watchdogSilent c since served d = true := by
  unfold watchdogSilent
  obtain hhalted | hadopts | hearly := h
  · rw [hhalted]; rfl
  · rw [hadopts, Bool.or_true]; rfl
  · rw [watchdogOut, decide_eq_false (Nat.not_le.2 hearly), Bool.and_false, Bool.not_false, Bool.or_true]

/-- SEC's, PMC's and SCH's watchdogs restart the device, unless they are silent. -/
theorem exec_watchdogExpiry {c : CoreId} (served : Nat) (s : State) (hc : ∀ n, c ≠ .cc n) :
    exec (.watchdogExpiry ⟨c, served⟩) s = liftR (fun d =>
      if watchdogSilent c d.boot.enteredAt served d then (d, false) else (restart 4 Cause.watchdog d, true)) s := by
  cases c with
  | cc n => exact absurd rfl (hc n)
  | sec => rfl
  | pmc => rfl
  | sch => rfl

theorem watchdogExpiry_restarts (c : CoreId) (served : Nat) (hc : ∀ n, c ≠ .cc n) :
    Restarts (.watchdogExpiry ⟨c, served⟩) (fun d => lapses c d.boot.enteredAt served d) (restart 4 Cause.watchdog) :=
  restarts_of_liftR (fun s => exec_watchdogExpiry served s hc) fun d h => by rw [not_silent_of_lapses h, if_neg Bool.false_ne_true]

theorem watchdogExpiry_silent {c : CoreId} {served : Nat} {s : State} (hc : ∀ n, c ≠ .cc n)
    (h : coreHalted c s.dev = true ∨ (adopting c s.dev).isSome = true ∨ s.dev.now < served + 410) :
    exec (.watchdogExpiry ⟨c, served⟩) s = .next s :=
  (exec_of_liftR (p := (s.dev, false)) (exec_watchdogExpiry served s hc) (if_pos (silent_of_pausedOrEarly h))).trans rfl

/-- A cluster core's expired watchdog costs its cluster's work, under either row (R623). -/
theorem clusterExpiry_loses {n : Fin 4} {served : Nat} {d : Dev}
    (h : (d.boot.running && lapses (.cc n) (clusterSince n.val d) served d) = true) :
    clusterExpiry ⟨n, served⟩ d
      = clusterLost n.val (logAt (coreLogCode (.cc n)) 1 (word (coreLogCode (.cc n)).toNat) 0 false d) := by
  obtain ⟨hrun, hlapses⟩ := Bool.and_eq_true_iff.1 h
  have hgo : (!d.boot.running || coreHalted (.cc n) d || (adopting (.cc n) d).isSome || !watchdogOut (clusterSince n.val d) served d)
      = false := by
    rw [hrun]
    exact not_silent_of_lapses hlapses
  exact if_neg (Bool.eq_false_iff.1 hgo)

theorem clusterWatchdogExpiry_loses (n : Fin 4) (served : Nat) : Happens (.clusterWatchdogExpiry ⟨n, served⟩)
    (fun d => d.boot.running && lapses (.cc n) (clusterSince n.val d) served d)
    (fun d => clusterLost n.val (logAt (coreLogCode (.cc n)) 1 (word (coreLogCode (.cc n)).toNat) 0 false d)) :=
  happens_of_lift (fun s => (rfl : exec _ s = execClusterWatchdogExpiry ⟨n, served⟩ s)) fun _ => clusterExpiry_loses

theorem watchdogExpiry_loses (n : Fin 4) (served : Nat) : Happens (.watchdogExpiry ⟨.cc n, served⟩)
    (fun d => d.boot.running && lapses (.cc n) (clusterSince n.val d) served d)
    (fun d => clusterLost n.val (logAt (coreLogCode (.cc n)) 1 (word (coreLogCode (.cc n)).toNat) 0 false d)) :=
  happens_of_liftR (fun s => (rfl : exec _ s = execWatchdogExpiry ⟨.cc n, served⟩ s)) fun _ h => by
    rw [← clusterExpiry_loses h]

/-- A core's protection fault as trace point 0 has noted it. -/
def faultNoted (c : CoreId) (addr : Word) (d : Dev) : Dev := logAt (coreLogCode c) 0 (word (coreLogCode c).toNat) addr false d

/-- What a core's noted fault comes to, and whether it restarts the device (R576, R577). -/
def coreFault (c : CoreId) (d : Dev) : Dev × Bool :=
  match adopting c d, c with
  | some h, _ => (failHandover 4 h d, false)
  | none, .cc n => (clusterLost n.val d, false)
  | none, _ => (restart 5 Cause.fault (owe (coreDebugCode c) 7 (Config.faultCode 15).toNat (raiseFault 15 d)), true)

theorem coreFault_adopting {c : CoreId} {d : Dev} {h : HandoverState} (hadopts : adopting c d = some h) :
    coreFault c d = (failHandover 4 h d, false) := by
  unfold coreFault
  rw [hadopts]

theorem coreFault_cluster {n : Fin 4} {d : Dev} (hown : adopting (.cc n) d = none) :
    coreFault (.cc n) d = (clusterLost n.val d, false) := by
  unfold coreFault
  rw [hown]

theorem coreFault_core {c : CoreId} {d : Dev} (hc : ∀ n, c ≠ .cc n) (hown : adopting c d = none) :
    coreFault c d = (restart 5 Cause.fault (owe (coreDebugCode c) 7 (Config.faultCode 15).toNat (raiseFault 15 d)), true) := by
  unfold coreFault
  rw [hown]
  cases c with
  | cc n => exact absurd rfl (hc n)
  | sec => rfl
  | pmc => rfl
  | sch => rfl

/-- With firmware running a fault is noted and then answered. -/
theorem protectionFault_core {c : CoreId} {addr : Word} {d : Dev} (hrun : d.boot.running = true) :
    (if !d.boot.running then (d, false) else coreFault c (faultNoted c addr d)) = coreFault c (faultNoted c addr d) :=
  if_neg (by rw [hrun]; decide)

theorem exec_protectionFault_core (c : CoreId) (addr : Word) (s : State) : exec (.protectionFault (.core c) addr) s
    = liftR (fun d => if !d.boot.running then (d, false) else coreFault c (faultNoted c addr d)) s := rfl

theorem protectionFault_restarts (c : CoreId) (addr : Word) (hc : ∀ n, c ≠ .cc n) : Restarts (.protectionFault (.core c) addr)
    (fun d => d.boot.running && (adopting c (faultNoted c addr d)).isNone)
    (fun d => restart 5 Cause.fault (owe (coreDebugCode c) 7 (Config.faultCode 15).toNat (raiseFault 15 (faultNoted c addr d)))) := by
  refine restarts_of_liftR (exec_protectionFault_core c addr) fun d h => ?_
  obtain ⟨hrun, hown⟩ := Bool.and_eq_true_iff.1 h
  rw [protectionFault_core hrun, coreFault_core hc (Option.isNone_iff_eq_none.1 hown)]

theorem protectionFault_cluster (n : Fin 4) (addr : Word) : Happens (.protectionFault (.core (.cc n)) addr)
    (fun d => d.boot.running && (adopting (.cc n) (faultNoted (.cc n) addr d)).isNone)
    (fun d => clusterLost n.val (faultNoted (.cc n) addr d)) := by
  refine happens_of_liftR (exec_protectionFault_core (.cc n) addr) fun d h => ?_
  obtain ⟨hrun, hown⟩ := Bool.and_eq_true_iff.1 h
  rw [protectionFault_core hrun, coreFault_cluster (Option.isNone_iff_eq_none.1 hown)]

/-- The new image of the core has failed its adoption (R594). -/
theorem protectionFault_adopting (c : CoreId) (addr : Word) (x : HandoverState) : Happens (.protectionFault (.core c) addr)
    (fun d => d.boot.running && adopting c (faultNoted c addr d) == some x) (fun d => failHandover 4 x (faultNoted c addr d)) := by
  refine happens_of_liftR (exec_protectionFault_core c addr) fun d h => ?_
  obtain ⟨hrun, hadopts⟩ := Bool.and_eq_true_iff.1 h
  rw [protectionFault_core hrun, coreFault_adopting (eq_of_beq hadopts)]

/-- The fault of a loaded applet is noted under its cluster. -/
theorem protectionFault_applet (a : AppletRef) (addr : Word) (x : Applet) : Happens (.protectionFault (.applet a) addr)
    (fun d => d.boot.running && appletAt d a == some x)
    (fun d => endActivation a End.cluster 0 0 []
      (logAt (BitVec.ofNat 8 (0x10 + x.cluster)) 0 (word (Config.unstated 40 [a.tenant.toNat, a.id.toNat])) addr false d)) := by
  refine happens_of_liftR (fun s => (rfl : exec _ s = execProtectionFault (.applet a) addr s)) fun d h => ?_
  obtain ⟨hrun, hloaded⟩ := Bool.and_eq_true_iff.1 h
  refine (if_neg (by rw [hrun]; decide)).trans ?_
  dsimp only
  rw [eq_of_beq hloaded]
  rfl

/-- Settles O35, a clause a row: a watchdog acts or is silent, and a core's fault has three answers. -/
theorem faultEventsHappen : Obligations.FaultEventsHappen :=
  ⟨watchdogExpiry_restarts, clusterWatchdogExpiry_loses, watchdogExpiry_loses, fun _ _ _ => watchdogExpiry_silent,
    protectionFault_restarts, protectionFault_cluster, protectionFault_adopting, protectionFault_applet⟩

end Sys2Proof.Machine
end

section
/-! PROOFS. What every row leaves of the queue and of the flow control, the link's own three rows apart (R198, R222). -/
namespace Sys2Proof.Machine

theorem calm_tapInstr (v : BitVec 5) (f : Dev → Dev) (s : State) : Calm s (tapInstr v f s) := calm_lift _ _

/-- A row but a frame, a reply and a release is a change of the device, or one that may also be a restart, which alone empties rings and
mailboxes. -/
theorem exec_calm (c : Instr) (s : State) (hframe : ∀ p o ws, c ≠ .requestFrame p o ws) (hreply : ∀ p, c ≠ .replyEnqueue p)
    (hrelease : ∀ p tag, c ≠ .replyRelease p tag) : Calm s (exec c s) := by
  cases c with
  | requestFrame p o ws => exact absurd rfl (hframe p o ws)
  | replyEnqueue p => exact absurd rfl (hreply p)
  | replyRelease p tag => exact absurd rfl (hrelease p tag)
  | powerUp | backupEntry | resetPin | pfNResume | hibernateWake | thermalShutdown | thermalRestart | fuseResense | tamperResponseSequence
  | watchdogExpiry | protectionFault | handoverQuiesceTimeout | handoverMonitorTimeout | handoverAdoption | successionTimeout =>
    rw [exec]; exact calm_liftR _ _
  | fwRestart | mgmtPower | mgmtRestart => rw [exec]; exact calm_restartCmd _ _ _ _ _
  | succCommit | succActivate | succRelease | succAbort => rw [exec]; exact calm_settleCmd _ _ _ _ _
  | nop | halt | trap | add | sub | and | or | xor | shl | shr | sar | mul | mulhu | divu | remu | slt | sltu | addi | andi | ori | xori
  | shli | shri | sari | slti | sltiu | ldi | ldx | ld | st | ldb | stb | beqz | bnez | bltz | bgez | beq | bne | blt | bltu | jmp | call
  | jr | callr | svc | tick | fuel | rand => rw [exec]; exact calm_appletInstr _ _ _ _ _
  | extest | samplePreload | clamp | highz | dbgSelect => rw [exec]; exact calm_tapInstr _ _ _
  | dbgNop | dbgRead | dbgWrite | dbgHalt | dbgResume | dbgStep | dbgStatus => rw [exec]; exact calm_debugReq _ _ _ _
  | regWrite f i v =>
    cases f with
    | port p => exact calm_lift _ _
    | mgmt => exact calm_mgmtTouch _ _
  | _ => rw [exec]; exact calm_lift _ _

end Sys2Proof.Machine
end

section
/-! PROOFS. Credits: a frame takes one while one is left, a reply moves its own from MAILBOX to PENDING, a release gives one back (R194,
R198, R202). -/
namespace Sys2Proof.Machine

/-- A whole frame takes a credit only while the port has one left (R194 check 6). -/
theorem frameComplete_credits (p : Port) (ws : List Word) (s : State) (h : creditsOk s.flow = true) :
    creditsOk (frameComplete p ws s).flow = true := by
  unfold frameComplete
  dsimp only
  split
  · exact frameRefusal_credits p ws _ _ s h
  split
  · exact frameRefusal_credits p ws _ _ s h
  split
  · exact frameRefusal_credits p ws _ _ s h
  next hleft => exact creditsOk_set h (by dsimp only; omega)

theorem frameWordsIn_credits (p : Port) (old new : List Word) (s : State) (h : creditsOk s.flow = true) :
    creditsOk (frameWordsIn p old new s).flow = true := by
  unfold frameWordsIn
  dsimp only
  split
  · exact h
  split
  · exact frameRefusal_credits p _ _ _ s h
  split
  · exact frameRefusal_credits p _ _ _ s h
  split
  · exact h
  split
  · exact frameComplete_credits p _ _ h
  · exact frameComplete_credits p _ _ h

theorem frameStart_credits (p : Port) (words : List Word) (s : State) (h : creditsOk s.flow = true) :
    creditsOk (frameStart p words s).flow = true := by
  unfold frameStart
  dsimp only
  split
  · exact frameWordsIn_credits p [] words _ h
  · exact h

/-- What REQUEST_FRAME answers keeps the bound of each port's credits. -/
theorem requestFrame_credits (p : Port) (o : Nat) (ws : List Word) (s s' : State) (h : creditsOk s.flow = true)
    (hstep : exec (.requestFrame p o ws) s = .next s') : creditsOk s'.flow = true := by
  change execRequestFrame p o ws s = _ at hstep
  injection hstep with hstate
  subst hstate
  dsimp only
  split
  · split
    · exact frameStart_credits p ws s h
    split
    · exact h
    split
    · exact h
    · exact frameWordsIn_credits p _ ws s h
  · exact h

/-- The port's flow after its oldest completed reply has entered the ring. -/
def replied (x : RingReply) (f : PortFlow) : PortFlow := { f with mailbox := f.mailbox - 1, ring := f.ring ++ [x] }

/-- REPLY_ENQUEUE changes nothing, or puts one reply into the ring for a credit of the mailbox. -/
theorem replyEnqueue_flow {p : Port} {s s' : State} (hstep : exec (.replyEnqueue p) s = .next s') :
    s'.flow = s.flow ∨ ∃ x, 0 < (s.flow.port p).mailbox ∧ s'.flow = s.flow.setPort p (replied x (s.flow.port p)) := by
  change execReplyEnqueue p s = _ at hstep
  injection hstep with hstate
  subst hstate
  dsimp only
  split
  · exact .inl rfl
  split
  next hfits => exact .inr ⟨_, hfits.2.1, rfl⟩
  next => exact .inl rfl

/-- REPLY_RELEASE changes nothing, or takes the head reply. -/
theorem replyRelease_flow {p : Port} {tag : BitVec 16} {s s' : State} (hstep : exec (.replyRelease p tag) s = .next s') :
    s'.flow = s.flow ∨ s'.flow = s.flow.setPort p (dropHead (s.flow.port p)) := by
  change execReplyRelease p tag s = _ at hstep
  injection hstep with hstate
  subst hstate
  split
  · exact .inr rfl
  · exact .inl rfl

@[simp] theorem dropHead_mailbox (f : PortFlow) : (dropHead f).mailbox = f.mailbox := by
  unfold dropHead; split <;> rfl

/-- Of the ring the head's release leaves all, or all but the oldest. -/
theorem dropHead_ring (f : PortFlow) : (dropHead f).ring = f.ring ∨ (dropHead f).ring.length + 1 = f.ring.length := by
  unfold dropHead
  split
  · cases hring : f.ring with
    | nil => exact .inl rfl
    | cons x xs => exact .inr rfl
  · exact .inl rfl

theorem replyEnqueue_credits {p : Port} {s s' : State} (h : creditsOk s.flow = true) (hstep : exec (.replyEnqueue p) s = .next s') :
    creditsOk s'.flow = true := by
  obtain hsame | ⟨x, hcredit, hflow⟩ := replyEnqueue_flow hstep
  · rw [hsame]; exact h
  · rw [hflow]
    have hport := (creditsOk_iff _).1 h p
    exact creditsOk_set h (by simp only [replied, List.length_append, List.length_singleton]; omega)

theorem replyRelease_credits {p : Port} {tag : BitVec 16} {s s' : State} (h : creditsOk s.flow = true)
    (hstep : exec (.replyRelease p tag) s = .next s') : creditsOk s'.flow = true := by
  obtain hsame | hflow := replyRelease_flow hstep
  · rw [hsame]; exact h
  · rw [hflow]
    have hport := (creditsOk_iff _).1 h p
    refine creditsOk_set h ?_
    obtain hring | hring := dropHead_ring (s.flow.port p)
    · rw [dropHead_mailbox, hring]; exact hport
    · rw [dropHead_mailbox]; omega

/-- Every command keeps the bound of each port's credits. -/
theorem exec_credits (c : Instr) (s s' : State) (h : creditsOk s.flow = true) (hexec : exec c s = .next s') :
    creditsOk s'.flow = true := by
  by_cases hframe : ∃ p o ws, c = .requestFrame p o ws
  · obtain ⟨p, o, ws, rfl⟩ := hframe
    exact requestFrame_credits p o ws s s' h hexec
  by_cases hreply : ∃ p, c = .replyEnqueue p
  · obtain ⟨p, rfl⟩ := hreply
    exact replyEnqueue_credits h hexec
  by_cases hrelease : ∃ p tag, c = .replyRelease p tag
  · obtain ⟨p, tag, rfl⟩ := hrelease
    exact replyRelease_credits h hexec
  obtain ⟨t, hnext, -, hflow⟩ := exec_calm c s (fun p o ws hc => hframe ⟨p, o, ws, hc⟩) (fun p hc => hreply ⟨p, hc⟩)
    (fun p tag hc => hrelease ⟨p, tag, hc⟩)
  obtain rfl : t = s' := by rw [hnext] at hexec; injection hexec
  obtain hsame | hempty := hflow
  · rw [hsame]; exact h
  · rw [hempty]; rfl

theorem step_credits (s s' : State) (h : creditsOk s.flow = true) (hstep : step s = .next s') : creditsOk s'.flow = true := by
  unfold step at hstep
  split at hstep
  · injection hstep with hstate; subst hstate; exact h
  next c rest _ => exact exec_credits c { s with pending := rest } s' h hstep

/-- CREDIT's three counts add up to T on a port within its bound. -/
theorem hostCredits_add {f : Flow} (h : creditsOk f = true) (p : Port) :
    hostCredits p f + (f.port p).mailbox + (f.port p).ring.length = p.credits := by
  have hport := (creditsOk_iff f).1 h p
  unfold hostCredits
  omega

/-- The oldest completed reply enters the ring when it fits, a credit is in the mailbox and no pause holds it back (R198, R202). -/
theorem replyEnqueue_enters {p : Port} {x : Reply} {s : State} (hfirst : firstFor p s.dev.done = some x)
    (hfits : ringUsed (s.flow.port p) + (wireReply p x s.dev).1.length ≤ p.ringSize) (hcredit : 0 < (s.flow.port p).mailbox)
    (hgoes : deliveryPaused x s.dev = false) : exec (.replyEnqueue p) s = .next { s with
      flow := s.flow.setPort p (replied { tag := x.req.tag, words := (wireReply p x s.dev).1 } (s.flow.port p))
      dev := closeMixed (retire x { (wireReply p x s.dev).2 with done := (wireReply p x s.dev).2.done.erase x }) } := by
  change execReplyEnqueue p s = _
  rw [execReplyEnqueue, hfirst]
  exact congrArg Host.Outcome.next (if_pos ⟨hfits, hcredit, hgoes⟩)

/-- Settles O48: all rows but the link's own three leave the flow or empty it, and each of the three keeps the bound; the moves of a
reply and a release are read off their flow. -/
theorem creditsConserved : Obligations.CreditsConserved := by
  refine ⟨step_credits, fun f p h => hostCredits_add h p, fun p s s' hstep => ?reply, fun p tag s s' hstep => ?release,
    fun p s x hfirst hcredit hfits hgoes => ⟨_, replyEnqueue_enters hfirst hfits hcredit hgoes, ?mailbox, ?ring⟩⟩
  case reply =>
    obtain hsame | ⟨x, hcredit, hflow⟩ := replyEnqueue_flow hstep
    · exact .inl hsame
    · rw [hflow, setPort_same, setPort_other]
      exact .inr ⟨Nat.sub_add_cancel hcredit, List.length_append, rfl⟩
  case release =>
    obtain hsame | hflow := replyRelease_flow hstep
    · exact .inl (by rw [hsame])
    · rw [hflow, setPort_same, setPort_other, dropHead_mailbox]
      exact (dropHead_ring _).imp_right fun hring => ⟨hring, rfl, rfl⟩
  case mailbox =>
    rw [setPort_same]
    exact Nat.sub_add_cancel hcredit
  case ring =>
    rw [setPort_same]
    exact List.length_append

end Sys2Proof.Machine
end

section
/-! PROOFS. What a restart leaves of the link: nothing (R140, R222, R265). -/
namespace Sys2Proof.Machine

/-- No session, no partial frame, nothing discarded, and no command, reply or long operation. -/
structure LinkEmpty (d : Dev) : Prop where
  cmds : d.cmds = []
  done : d.done = []
  held : d.held = []
  longs : d.sched.longs = []
  ports : ∀ p, (d.port p).sessions = [] ∧ (d.port p).discard = 0 ∧ (d.port p).rx = []

theorem clearVolatile_linkEmpty (d : Dev) : LinkEmpty (clearVolatile d) :=
  ⟨rfl, rfl, rfl, rfl, fun p => by cases p <;> exact ⟨rfl, rfl, rfl⟩⟩

/-- An update of the device that leaves all this as it was. -/
theorem LinkEmpty.congr {d e : Dev} (h : LinkEmpty d) (hcmds : e.cmds = d.cmds) (hdone : e.done = d.done) (hheld : e.held = d.held)
    (hsched : e.sched = d.sched) (hportA : e.portA = d.portA) (hportB : e.portB = d.portB) : LinkEmpty e where
  cmds := hcmds.trans h.cmds
  done := hdone.trans h.done
  held := hheld.trans h.held
  longs := (congrArg Sched.longs hsched).trans h.longs
  ports p := by
    cases p with
    | a => exact (show e.port .a = d.port .a from hportA) ▸ h.ports .a
    | b => exact (show e.port .b = d.port .b from hportB) ▸ h.ports .b

/-- Every restart under R140 empties the link, whatever its entry phase and cause. -/
theorem restart_linkEmpty (phase bit : Nat) (d : Dev) : LinkEmpty (restart phase bit d) := by
  unfold restart
  exact (clearVolatile_linkEmpty _).congr rfl rfl rfl rfl rfl rfl

/-- So does the loss of power: the port registers go too. -/
theorem powerDown_linkEmpty (p : Power) (d : Dev) : LinkEmpty (powerDown p d) :=
  ⟨rfl, rfl, rfl, rfl, fun q => by cases q <;> exact ⟨rfl, rfl, rfl⟩⟩

theorem pinReset_linkEmpty (d : Dev) : LinkEmpty (pinReset d) := by
  have h := restart_linkEmpty 4 Cause.pin (finishWrites d)
  exact ⟨h.cmds, h.done, h.held, h.longs, fun p => by cases p <;> exact ⟨rfl, rfl, rfl⟩⟩

theorem alertBit_linkEmpty {d : Dev} (h : LinkEmpty d) (b : Nat) : LinkEmpty (alertBit b d) :=
  h.congr rfl rfl rfl rfl rfl rfl

theorem enterBackup_linkEmpty (d : Dev) : LinkEmpty (enterBackup d) :=
  (powerDown_linkEmpty .backup _).congr rfl rfl rfl rfl rfl rfl

/-- Both ends of a response restart the device: SCORCHED, and the L2 response (R500, R503). -/
theorem runResponse_linkEmpty (l : Nat) (e : FuseEnd) (d : Dev) : LinkEmpty (runResponse l e d) := by
  unfold runResponse
  dsimp only
  split
  · exact restart_linkEmpty 5 Cause.tamperL3 _
  · exact restart_linkEmpty 5 Cause.tamperL2 _

/-- A row that restarts the device has emptied the link on both sides: the flow control by the restart, the device by its effect. -/
theorem Restarts.emptiesLink {c : Instr} {pre : Dev → Bool} {f : Dev → Dev} {s : State} (h : Restarts c pre f) (hpre : pre s.dev = true)
    (hempty : LinkEmpty (f s.dev)) :
    ∃ t, exec c s = .next t ∧ t.flow = {} ∧ t.dev.cmds = [] ∧ t.dev.done = [] ∧ t.dev.held = [] ∧ t.dev.sched.longs = []
      ∧ ∀ p, (t.dev.port p).sessions = [] ∧ (t.dev.port p).discard = 0 ∧ (t.dev.port p).rx = [] :=
  ⟨_, h s hpre, rfl, hempty.cmds, hempty.done, hempty.held, hempty.longs, hempty.ports⟩

/-- Noting a fault leaves the handover. -/
theorem logAt_handover (c : Byte) (p : Nat) (a b : Word) (k : Bool) (d : Dev) : (logAt c p a b k d).fw.handover = d.fw.handover := by
  unfold logAt; split <;> rfl

theorem adopting_none {c : CoreId} {d : Dev} (h : d.fw.handover = none) : adopting c d = none := by
  rw [adopting, h]; rfl

/-- In shutdown a temperature of 140 degC or less restarts the device from phase 3 (R56). -/
theorem thermalRestart_restarts {t : Int} (ht : t ≤ 2240) : Restarts (.thermalRestart t) (fun d => d.power.state == .shutdown)
    (fun d => alertBit Alert.thermal (restart 3 Cause.thermal (setTemp t d))) := by
  refine restarts_of_liftR (fun s => (rfl : exec _ s = execThermalRestart t s)) fun d h => ?_
  exact if_pos (by rw [eq_of_beq h, decide_eq_true ht]; rfl)

/-- A response that is due runs, unless the loss of VDD cuts it short (R491, R493). -/
theorem tamperResponse_restarts (fuse : FuseEnd) (cut : Bool) (l : Nat) :
    Restarts (.tamperResponseSequence fuse cut) (fun d => d.tamper.response == some l)
      (fun d => if cut then enterBackup (finishWrites d) else runResponse l fuse (finishWrites d)) := by
  refine restarts_of_liftR (fun s => (rfl : exec _ s = execTamperResponseSequence fuse cut s)) fun d h => ?_
  rw [eq_of_beq h]
  exact (apply_ite (·, true) _ _ _).symm

/-- Settles O57: each of the rows restarts the device, and what restarts it has emptied the link. -/
theorem restartsEmptyTheLink : Obligations.RestartsEmptyTheLink := by
  refine ⟨fun ns b s hlong hpowered => ?pin, fun c served s hc hpowered hup hgoes hown hsince hlate => ?watchdog,
    fun c addr s hc hrun hnone => ?fault, fun t s ht hstate => ?thermal, fun fuse cut l s hdue => ?response⟩
  case pin => exact (resetPin_powered b hlong).emptiesLink hpowered (pinReset_linkEmpty _)
  case watchdog =>
    refine (watchdogExpiry_restarts c served hc).emptiesLink ?_ (restart_linkEmpty 4 Cause.watchdog _)
    rw [lapses, hpowered, bne_iff_ne.2 hup, hgoes, hown, decide_eq_true hsince, decide_eq_true hlate]
    rfl
  case fault =>
    refine (protectionFault_restarts c addr hc).emptiesLink ?_ (restart_linkEmpty 5 Cause.fault _)
    rw [hrun, adopting_none (d := faultNoted c addr s.dev) ((logAt_handover _ _ _ _ _ _).trans hnone)]
    rfl
  case thermal =>
    exact (thermalRestart_restarts ht).emptiesLink (beq_iff_eq.2 hstate) (alertBit_linkEmpty (restart_linkEmpty 3 Cause.thermal _) _)
  case response =>
    refine (tamperResponse_restarts fuse cut l).emptiesLink (beq_iff_eq.2 hdue) ?_
    split
    · exact enterBackup_linkEmpty _
    · exact runResponse_linkEmpty l fuse _

end Sys2Proof.Machine
end

section
/-! PROOFS. The SPI instruction set of the host ports: what a transaction's bytes ask for and what its reads return (R173-R177). -/
namespace Sys2Proof.Machine

/-- The number in a word's wire bytes is the word's (R5). -/
theorem leNat_wordBytes (w : Word) : leNat (wordBytes w) = w.toNat := by
  have hw := w.isLt
  simp only [wordBytes, leNat, BitVec.toNat_ofNat]
  omega

theorem bytesWordsN_wordsBytes (ws : List Word) (tail : List Byte) : bytesWordsN ws.length (wordsBytes ws ++ tail) = ws := by
  induction ws with
  | nil => rfl
  | cons w ws ih =>
    rw [wordsBytes_cons, List.append_assoc, List.length_cons, bytesWordsN, List.take_left' (wordBytes_length w),
      List.drop_left' (wordBytes_length w), ih, leNat_wordBytes, word, BitVec.ofNat_toNat, BitVec.setWidth_eq]

/-- The whole words of the data are those before an incomplete one (R175). -/
theorem wholeWords_append (ws : List Word) {tail : List Byte} (htail : tail.length < 6) : wholeWords (wordsBytes ws ++ tail) = ws := by
  have hcount : (wordsBytes ws ++ tail).length / 6 = ws.length := by
    rw [List.length_append, wordsBytes_length]
    omega
  rw [wholeWords, hcount, bytesWordsN_wordsBytes]

/-- The two address bytes, least significant first. -/
theorem leNat_address {addr : Nat} (h : addr < 65536) : leNat [BitVec.ofNat 8 addr, BitVec.ofNat 8 (addr / 256)] = addr := by
  simp only [leNat, BitVec.toNat_ofNat]
  omega

/-- What a whole transaction asks for by its instruction, the number in its address bytes and its data. -/
def askedBy (i : Byte) (addr : Nat) (data : List Byte) : List SpiOp :=
  match i.toNat with
  | 0x01 => []
  | 0x02 => regWrites addr (wholeWords data)
  | 0x03 => [.frameWrite addr (wholeWords data)]
  | 0x04 => []
  | 0x05 => [.replyRelease (BitVec.ofNat 16 addr)]
  | _ => [.linkError]

/-- The bytes of a transaction with its instruction, complement and address ask for what their parts say. -/
theorem spiOps_spiBytes (p : Port) (i : Byte) (addr : Nat) (data : List Byte) :
    spiOps p (spiBytes p i addr data) = askedBy i (leNat [BitVec.ofNat 8 addr, BitVec.ofNat 8 (addr / 256)]) data := by
  cases p with
  | a =>
    have hlen : ¬ (spiBytes .a i addr data).length < 4 := by simp [spiBytes]
    have hhead : spiHead .a (spiBytes .a i addr data) = some (i, [BitVec.ofNat 8 addr, BitVec.ofNat 8 (addr / 256)] ++ data) := if_pos rfl
    rw [spiOps, if_neg hlen, hhead]
    rfl
  | b =>
    have hlen : ¬ (spiBytes .b i addr data).length < 3 := by simp [spiBytes]
    rw [spiOps, if_neg hlen]
    rfl

/-- Writes from an index upward, the reserved indexes left out (R176). -/
theorem regWrites_eq (addr : Nat) (ws : List Word) : regWrites addr ws = (ws.zipIdx.filter (fun x => decide (addr + x.2 ≤ 6))).map
    (fun x => .regWrite (BitVec.ofNat 8 (addr + x.2)) x.1) := by
  rw [regWrites, List.zipIdx_eq_map_add, List.filterMap_map, ← List.filterMap_eq_map, List.filterMap_filter]
  refine congrArg (List.filterMap · ws.zipIdx) (funext fun x => ?_)
  by_cases hx : addr + x.2 ≤ 6
  · simp [hx]
  · simp [hx]

theorem askedBy_regWrite {addr : Nat} {ws : List Word} {tail : List Byte} (htail : tail.length < 6) :
    askedBy 0x02 addr (wordsBytes ws ++ tail) = regWrites addr ws := by
  change regWrites addr (wholeWords (wordsBytes ws ++ tail)) = _
  rw [wholeWords_append ws htail]

theorem askedBy_frameWrite {addr : Nat} {ws : List Word} {tail : List Byte} (htail : tail.length < 6) :
    askedBy 0x03 addr (wordsBytes ws ++ tail) = [.frameWrite addr ws] := by
  change [SpiOp.frameWrite addr (wholeWords (wordsBytes ws ++ tail))] = _
  rw [wholeWords_append ws htail]

theorem askedBy_replyRelease (tag : BitVec 16) (data : List Byte) : askedBy 0x05 tag.toNat data = [.replyRelease tag] := by
  change [SpiOp.replyRelease (BitVec.ofNat 16 tag.toNat)] = _
  rw [BitVec.ofNat_toNat, BitVec.setWidth_eq]

/-- An instruction outside 0x01 to 0x05 is a LINK_ERROR (R174). -/
theorem askedBy_reserved {i : Byte} (h : i.toNat = 0 ∨ 5 < i.toNat) (addr : Nat) (data : List Byte) : askedBy i addr data = [.linkError] := by
  unfold askedBy
  split
  case h_6 => rfl
  all_goals omega

/-- So is an instruction that port A's second byte does not repeat inverted (R174). -/
theorem spiOps_badComplement {i c : Byte} (h : c ≠ ~~~i) (x y : Byte) (data : List Byte) :
    spiOps .a (i :: c :: x :: y :: data) = [.linkError] := by
  have hlen : ¬ (i :: c :: x :: y :: data).length < 4 := by simp
  have hhead : spiHead .a (i :: c :: x :: y :: data) = none := if_neg h
  rw [spiOps, if_neg hlen, hhead]

theorem portField_reserved (s : State) (p : Port) {i : Nat} (h : 6 < i) : portField s p i = 0 := by
  unfold portField
  split
  case h_7 => rfl
  all_goals omega

/-- A word of REG_READ is the register at its index (R173). -/
theorem regRead_getElem? {s : State} {p : Port} {addr n k : Nat} (hk : k < n) (hlive : portLive s.dev p = true) :
    (spiRead s p 0x01 addr n)[k]? = some (portField s p (addr + k)) := by
  change ((List.range n).map (fun k => portReg s p (addr + k)))[k]? = _
  rw [List.getElem?_map, List.getElem?_range hk, Option.map_some, portReg, if_pos hlive]

theorem fitW_getElem? {ws : List Word} {n k : Nat} (hk : k < n) : (fitW n ws)[k]? = some (wd ws k) := by
  rw [fitW, List.getElem?_take_of_lt hk, wd, List.getD_eq_getElem?_getD]
  by_cases hin : k < ws.length
  · rw [List.getElem?_append_left hin, List.getElem?_eq_getElem hin]
    rfl
  · have hout : ws.length ≤ k := Nat.le_of_not_lt hin
    rw [List.getElem?_append_right hout, List.getElem?_replicate, if_pos (by omega), List.getElem?_eq_none hout]
    rfl

/-- A word of FRAME_READ is the head reply's, zero past its end (R173, R177). -/
theorem frameRead_getElem? {s : State} {p : Port} {addr n k : Nat} {x : RingReply} (hk : k < n)
    (hhead : headReply (s.flow.port p) = some x) : (spiRead s p 0x04 addr n)[k]? = some (wd x.words (addr + k)) := by
  change (frameRead (s.flow.port p) addr n)[k]? = _
  rw [frameRead, hhead, fitW_getElem? hk]
  simp [wd]

/-- Settles O59: a transaction's parts are read off its bytes once, and each instruction answers by them. -/
theorem spiTransactionsCommand : Obligations.SpiTransactionsCommand := by
  refine ⟨fun p addr ws tail haddr htail => ?regWrite, fun p addr ws tail haddr htail => ?frameWrite, fun p tag data => ?release,
    fun p i addr data hreserved => ?reserved, fun _ _ x y data hbad => spiOps_badComplement hbad x y data,
    fun p s addr n k hk hlive hpast => ?zero, fun p s addr n k hk hlive _ => regRead_getElem? hk hlive,
    fun p s addr n k x hk hhead => frameRead_getElem? hk hhead⟩
  case regWrite => rw [spiOps_spiBytes, leNat_address haddr, askedBy_regWrite htail, regWrites_eq]
  case frameWrite => rw [spiOps_spiBytes, leNat_address haddr, askedBy_frameWrite htail]
  case release => rw [spiOps_spiBytes, leNat_address tag.isLt, askedBy_replyRelease]
  case reserved => rw [spiOps_spiBytes, askedBy_reserved hreserved]
  case zero => rw [regRead_getElem? hk hlive, portField_reserved s p hpast]

end Sys2Proof.Machine
end

section
/-! PROOFS. Commands that public-key programs serve: one whose first program can start is dispatched at once (R251, R259, R398, R414). -/
namespace Sys2Proof.Machine

/-- What lets a command's first program start: an engine and the operand slots; its programs end in time, and the tenant has time left. -/
theorem pkGoes_iff {r : Req} {d : Dev} : pkGoes r d = true ↔ ((programsOf d r).headD 0 ≠ 0 ∧ pastDeadline d r (programsOf d r) = false
    ∧ pkTimeUp d r.gen r.tenant = false) ∧ progFits r ((programsOf d r).headD 0) d = true := by
  simp [pkGoes, and_assoc]

theorem progFits_iff {r : Req} {p : Nat} {d : Dev} : progFits r p d = true ↔ (freeEngine d p none).isSome = true
    ∧ slotsFree d r.tenant (partOf d r) (slotsOf r p (partOf d r)) = true ∧ slotsOf r p (partOf d r) ≤ partSlots (partOf d r)
    ∧ (isVerifyProg p || d.sym.randomOk) = true ∧ operandRoom d (partOf d r) (slotsOf r p (partOf d r)) = true := by
  simp [progFits, and_assoc]

/-- Dispatch comes to a decision on such a command. -/
theorem pkReadyNow_of_pkGoes {r : Req} {d : Dev} (h : pkGoes r d = true) : pkReadyNow d r = true := by
  obtain ⟨⟨-, -, htime⟩, hfits⟩ := pkGoes_iff.1 h
  obtain ⟨hengine, hslots, -⟩ := progFits_iff.1 hfits
  simp only [pkReadyNow, pkDecides, htime, hengine, hslots, Bool.not_false, Bool.and_self, Bool.or_true, Bool.true_or]

/-- What the issuer check and the body of a command that programs serve make of the device. -/
def dispatchedPk (r : Req) (d : Dev) : Dev := settle r d (pkIssuer r >>= fun _ => pkBody r d)

/-- A served command whose first program can start is its issuer check and its body, over the device without the command. -/
theorem pkCmd_eq {op : Nat} {r : Req} {s : State} (hserved : Served op r s.dev) (hgoes : pkGoes r (taken r s.dev) = true) :
    pkCmd op r s = .next { s with dev := dispatchedPk r (unready r (taken r s.dev)) } := by
  have hready : pkReadyNow s.dev r = true := pkReadyNow_of_pkGoes (d := taken r s.dev) hgoes
  have hintime : pastDeadline (unready r (taken r s.dev)) r (programsOf (unready r (taken r s.dev)) r) = false :=
    (pkGoes_iff.1 hgoes).1.2.1
  have hserve := serve_eq (op := op) (fun _ => pkIssuer r) (fun d => do
    need (!(pastDeadline d r (programsOf d r))) St.deadline
    pkBody r d) (show Served op r (unready r s.dev) from hserved)
  rw [pkCmd, lift, if_pos ⟨hserved.1, hserved.2.1⟩, if_pos hready]
  refine congrArg (fun d : Dev => Host.Outcome.next { s with dev := d }) (hserve.trans ?_)
  change settle r (unready r (taken r s.dev)) (pkIssuer r >>= fun _ =>
    need (!(pastDeadline (unready r (taken r s.dev)) r (programsOf (unready r (taken r s.dev)) r))) St.deadline >>= fun _ =>
      pkBody r (unready r (taken r s.dev))) = _
  rw [hintime]
  rfl

/-- The job of a command's first program, the others behind it. -/
def firstJob (r : Req) (ps : List Nat) (slot : Option SlotRef) (work : PkWork) (d : Dev) : PkJob :=
  { req := r, prog := ps.headD 0, chain := ps.drop 1, began := d.now, tenant := r.tenant
    slots := slotsOf r (ps.headD 0) (partOf d r), part := partOf d r, slot := slot, work := work }

/-- A checked command starts its first program on the free engine. -/
theorem launch_starts {r : Req} {ps : List Nat} {d : Dev} (slot : Option SlotRef) (work : PkWork)
    (hfits : progFits r (ps.headD 0) d = true) : launch r ps slot work d
      = .ok (startProg ((freeEngine d (ps.headD 0) none).getD 0) (firstJob r ps slot work d) d, .later) := by
  obtain ⟨hengine, hslots, -⟩ := progFits_iff.1 hfits
  obtain ⟨e, he⟩ := Option.isSome_iff_exists.1 hengine
  rw [launch, he]
  exact if_pos hslots

/-- Where an engine is free, one serves. -/
theorem anyEngine_of_freeEngine {d : Dev} {p : Nat} {avoid : Option Nat} (h : (freeEngine d p avoid).isSome = true) :
    anyEngine d = true := by
  obtain ⟨e, he⟩ := Option.isSome_iff_exists.1 h
  unfold freeEngine at he
  split at he
  · cases he
  · have hserves := List.find?_some he
    simp only [Bool.and_eq_true, and_assoc] at hserves
    have hany : (List.range 2).any (engineServes d) = true := List.any_eq_true.2 ⟨e, List.mem_of_find?_eq_some he, hserves.1⟩
    simpa [anyEngine, List.range_succ] using hany

end Sys2Proof.Machine
end

section
/-! PROOFS. LINK_INFO, LINK_PING and the session commands (R206-R208, R221, R223, R234). -/
namespace Sys2Proof.Machine

theorem needOpen_ok {r : Req} (h : (!r.inSession) = true) : needOpen r = .ok () := need_ok h

theorem needSession_ok {r : Req} (h : r.mac = true) : needSession r = .ok () := need_ok h

theorem linkInfo_holds : effLinkInfo.Holds := by
  refine HostEffect.holds_of_hostCmd (fun r s => (rfl : exec _ s = execLinkInfo r s)) fun r s d _ h => ?_
  obtain ⟨hopen, hlen⟩ := Bool.and_eq_true_iff.1 h
  rw [needOpen_ok hopen, ok_bind, param_ok hlen]
  rfl

theorem linkPing_holds : effLinkPing.Holds := by
  refine HostEffect.holds_of_hostCmd (fun r s => (rfl : exec _ s = execLinkPing r s)) fun r s d _ h => ?_
  have hlen : (r.len == 0) = true := h
  rw [ok_bind, param_ok hlen]
  rfl

theorem origin_of_portOf {r : Req} {p : Port} (h : portOf r = some p) : r.origin = .port p := by
  unfold portOf at h
  split at h
  next q horigin => injection h with hq; exact hq ▸ horigin
  next => cases h

/-- A request in a session came on a port. -/
theorem origin_of_requestSession {r : Req} {d : Dev} {x : Session} (h : requestSession r d = some x) :
    ∃ p, r.origin = .port p ∧ ownSession d p r = some x := by
  obtain ⟨p, hport, hown⟩ := Option.bind_eq_some_iff.1 h
  exact ⟨p, origin_of_portOf hport, hown⟩

theorem sessionStatus_holds : effSessionStatus.Holds := by
  refine HostEffect.holds_of_hostCmd (fun r s => (rfl : exec _ s = execSessionStatus r s)) fun r s d _ h => ?_
  simp only [effSessionStatus, Bool.and_eq_true, and_assoc] at h
  obtain ⟨hmac, hlen, hsome⟩ := h
  obtain ⟨x, hx⟩ := Option.isSome_iff_exists.1 hsome
  obtain ⟨p, horigin, hown⟩ := origin_of_requestSession hx
  rw [needSession_ok hmac, ok_bind, param_ok hlen, ok_bind]
  simp only [effSessionStatus, horigin, hown, hx]
  rfl

/-- The session the command came in closes with this reply, unless it has closed meanwhile (R223). -/
theorem sessionClose_holds : effSessionClose.Holds := by
  refine HostEffect.holds_of_hostCmd (fun r s => (rfl : exec _ s = execSessionClose r s)) fun r s d _ h => ?_
  simp only [effSessionClose, Bool.and_eq_true, and_assoc] at h
  obtain ⟨hmac, hlen, hport⟩ := h
  rw [needSession_ok hmac, ok_bind, param_ok hlen, ok_bind]
  simp only [effSessionClose, requestSession, portOf] at hport ⊢
  cases horigin : r.origin with
  | port p =>
    simp only [Option.bind_some]
    cases ownSession d p r with
    | some x => rfl
    | none => rfl
  | applet a => rw [horigin] at hport; cases hport
  | mgmt => rw [horigin] at hport; cases hport

theorem sessionRevoke_holds : effSessionRevoke.Holds := by
  refine HostEffect.holds_of_hostCmd (fun r s => (rfl : exec _ s = execSessionRevoke r s)) fun r s d _ h => ?_
  simp only [effSessionRevoke, Bool.and_eq_true, and_assoc] at h
  obtain ⟨htenant, hsession, hsized, hbits, hnamed⟩ := h
  rw [needOwner_ok (by rw [htenant, hsession]; rfl), ok_bind, param_ok (by rw [hsized, hbits, hnamed]; rfl)]
  rfl

theorem pkIssuer_open {r : Req} (hop : r.opcode.toNat = 0x0110) (hopen : (!r.inSession) = true)
    (hadmin : (!(opensAdmin r && openTenant r != 0)) = true) : pkIssuer r = .ok () := by
  have hopcode : (r.opcode == 0x0110) = true := beq_iff_eq.2 (BitVec.eq_of_toNat_eq hop)
  rw [pkIssuer, if_pos hopcode, needOpen_ok hopen, ok_bind, need_ok hadmin]

theorem pkBody_open {r : Req} (hop : r.opcode.toNat = 0x0110) (d : Dev) : pkBody r d = openBody r d := by
  simp only [pkBody, hop]

/-- SESSION_OPEN's launch, against the named authority's key or one drawn in its place (R207). -/
def openLaunch (r : Req) (d : Dev) : Res (Dev × Done) :=
  match authorityOf d r with
  | some (kt, key) => launch r (openPrograms d r) none (.session kt key) d
  | none =>
    let x := drawBytes 56 d
    launch r (openPrograms x.2 r) none (.session 0 (p384.publicOf (scalarFrom 0x11 x.1))) x.2

/-- Past the checks of its payload, its port and the engines SESSION_OPEN launches its programs. -/
theorem openBody_launches {r : Req} {d : Dev} {p : Port} (hform : (r.sized 30 && onlyBits (r.w 0) [(47, 40), (39, 32), (25, 24), (15, 0)]
      && openTenant r != 0xFF && (r.f 0 39 32 == 1 || r.f 0 39 32 == 2) && decide (r.f 0 15 0 ≤ 3600)) = true)
    (hpad : ((r.bytesFrom 3 66).drop (if openX25519 r then 32 else 64)).all (· == 0) = true) (horigin : r.origin = .port p)
    (hadmin : (!(opensAdmin r && (adminSession (d.port p)).isSome)) = true) (hfree : (freeSession (d.port p)).isSome = true)
    (hengine : anyEngine d = true) (hrandom : d.sym.randomOk = true) : openBody r d = openLaunch r d := by
  rw [openBody, param_ok hform, ok_bind, param_ok hpad, ok_bind, horigin]
  dsimp only
  rw [need_ok hadmin, ok_bind, need_ok hfree, ok_bind, needEngine, need_ok hengine, ok_bind, need_ok (by rw [hrandom, Bool.or_true]),
    ok_bind]
  rfl

/-- The chain by the authority's key type and the agreement's curve (R208). -/
theorem openPrograms_eq (d : Dev) (r : Req) : openPrograms d r
    = (if (authorityOf d r).map (·.1) = some 1 then 0x02 else if (authorityOf d r).map (·.1) = some 3 then 0x06 else 0x04)
      :: (if r.f 0 39 32 == 2 then [0x0C, 0x09, 0x03] else [0x0A, 0x07, 0x03]) := by
  unfold openPrograms openX25519
  congr 1
  split
  next h => rw [h]; rfl
  next h => rw [h]; rfl
  next h1 h3 => rw [if_neg h1, if_neg h3]

/-- Random words drawn leave whether a program can start. -/
theorem progFits_draw (r : Req) (p n : Nat) (d : Dev) : progFits r p (drawBytes n d).2 = progFits r p d := by
  rw [drawBytes_spends]
  rfl

theorem openPrograms_draw (r : Req) (n : Nat) (d : Dev) : openPrograms (drawBytes n d).2 r = openPrograms d r := by
  rw [drawBytes_spends]
  rfl

/-- Either way the effect is what the launch comes to when its first program can start. -/
theorem openLaunch_settles {r : Req} {d : Dev} (s : State) (hfits : progFits r ((openPrograms d r).headD 0) d = true) :
    .next { s with dev := settle r (unready r d) (openLaunch r (unready r d)) } = effSessionOpen.out r d s := by
  have hpartFits : progFits r ((openPrograms (unready r d) r).headD 0) (unready r d) = true := hfits
  cases hauth : authorityOf d r with
  | some x =>
    have hauth' : authorityOf (unready r d) r = some x := hauth
    rw [openLaunch, hauth']
    dsimp only
    rw [launch_starts none _ hpartFits, openPrograms_eq, hauth']
    simp only [effSessionOpen, hauth]
    rfl
  | none =>
    have hauth' : authorityOf (unready r d) r = none := hauth
    rw [openLaunch, hauth']
    dsimp only
    rw [openPrograms_draw, launch_starts none _ ((progFits_draw _ _ _ _).trans hpartFits), openPrograms_eq, hauth']
    simp only [effSessionOpen, hauth]
    rfl

/-- Dispatch comes to the launch at once, and the launch to the effect. -/
theorem sessionOpen_holds : effSessionOpen.Holds := by
  intro r s hserved h
  simp only [effSessionOpen, Bool.and_eq_true, and_assoc] at h
  obtain ⟨hopen, hadminTenant, hsized, hbits, htenant, hcurve, hidle, hpad, hrandom, hgoes, hport⟩ := h
  obtain ⟨p, hp, hfree⟩ := (Option.any_eq_true _ _).1 hport
  obtain ⟨hadmin, hid⟩ := Bool.and_eq_true_iff.1 hfree
  have hop : r.opcode.toNat = 0x0110 := hserved.2.1
  have hprograms : programsOf (taken r s.dev) r = openPrograms (taken r s.dev) r := by simp only [programsOf, hop]
  have hfits := (pkGoes_iff.1 hgoes).2
  rw [hprograms] at hfits
  have hengine := anyEngine_of_freeEngine (progFits_iff.1 hfits).1
  change pkCmd effSessionOpen.op r s = _
  rw [pkCmd_eq hserved hgoes, dispatchedPk, pkIssuer_open hop hopen hadminTenant, ok_bind, pkBody_open hop,
    openBody_launches (d := unready r (taken r s.dev)) (p := p) (by rw [hsized, hbits, htenant, hcurve, hidle]; rfl) hpad
      (origin_of_portOf hp) hadmin hid hengine hrandom,
    openLaunch_settles s hfits]

/-- Settles O1, a clause a row: each row's checks pass under its effect's conditions. -/
theorem hostLinkCommandsComplete : Obligations.HostLinkCommandsComplete :=
  ⟨linkInfo_holds, linkPing_holds, sessionStatus_holds, sessionOpen_holds, sessionClose_holds, sessionRevoke_holds⟩

end Sys2Proof.Machine
end

section
/-! PROOFS. The port and management registers after reset and after a write of ATTN_MASK (R176, R179, R180, R198, R610). -/
namespace Sys2Proof.Machine

/-- A port answers as before when its registers change. -/
theorem portLive_modPort (d : Dev) (p q : Port) (f : PortRegs → PortRegs) : portLive (d.modPort p f) q = portLive d q := by
  cases p <;> cases q <;> rfl

/-- The low twelve bits of a word, as a word. -/
theorem word_setWidth_12 (v : Word) : word (v.setWidth 12).toNat = v &&& 0xFFF := by
  apply BitVec.eq_of_toNat_eq
  have hmask : (0xFFF : Word).toNat = 2 ^ 12 - 1 := rfl
  rw [word, BitVec.toNat_ofNat, BitVec.toNat_setWidth, BitVec.toNat_and, hmask, Nat.and_two_pow_sub_one_eq_mod]
  omega

/-- A port register that the port serves acts as its row says (R176). -/
theorem regWrite_port (p : Port) (i : Byte) (v : Word) :
    Happens (.regWrite (.port p) i v) (fun d => portLive d p) (portRegWrite p i.toNat v) :=
  happens_of_lift (g := fun d => if portLive d p then portRegWrite p i.toNat v d else d) (fun _ => rfl) fun _ h => if_pos h

theorem regWrite_mask_reads (p : Port) (v : Word) (s : State) (h : portLive s.dev p = true) :
    ∃ t, exec (.regWrite (.port p) 2 v) s = .next t ∧ portReg t p 2 = (v &&& 0xFFF) := by
  refine ⟨_, regWrite_port p 2 v s h, ?_⟩
  have hlive : portLive (s.dev.modPort p (fun x => { x with mask := v.setWidth 12 })) p = true := (portLive_modPort _ _ _ _).trans h
  refine (if_pos hlive).trans ?_
  change word ((s.dev.modPort p (fun x => { x with mask := v.setWidth 12 })).port p).mask.toNat = _
  rw [modPort_port, word_setWidth_12]

/-- Settles O49: the reset values by evaluation, the mask by what a write of it reads back. -/
theorem resetAndMaskValues : Obligations.ResetAndMaskValues :=
  ⟨fun p => by cases p <;> rfl, by decide, by decide, rfl, rfl, rfl, rfl, wf_reset, regWrite_mask_reads⟩

end Sys2Proof.Machine
end

section
/-! PROOFS. The words of frames: what lays them into the receive buffer, completes them or refuses them (R191-R197). -/
namespace Sys2Proof.Machine

/-- The state with these words of a frame in the receive buffer of a port, dead or alive. -/
def laid (p : Port) (ws : List Word) (dead : Bool) (s : State) : State :=
  { s with dev := s.dev.modPort p (fun x => { x with rx := ws, rxDead := dead }) }

theorem laid_laid (p : Port) (ws ws' : List Word) (dead dead' : Bool) (s : State) :
    laid p ws' dead' (laid p ws dead s) = laid p ws' dead' s := by
  rw [laid, laid, modPort_modPort]
  rfl

/-- A refusal and the words in the buffer do not touch each other. -/
theorem frameRefusal_laid (p : Port) (x ws : List Word) (st : Byte) (ctr : Nat) (dead : Bool) (s : State) :
    frameRefusal p ws st ctr (laid p x dead s) = laid p x dead (frameRefusal p ws st ctr s) := by
  have hflow : (laid p x dead s).flow = s.flow := rfl
  unfold frameRefusal
  rw [hflow]
  cases (s.flow.port p).refusal with
  | some y => cases p <;> rfl
  | none => cases p <;> rfl

section FrameWords
variable {p : Port} {old new : List Word} {s : State}

/-- With less than its two header words a frame is not looked at. -/
theorem frameWordsIn_short (h : (old ++ new).length < 2) : frameWordsIn p old new s = laid p (old ++ new) false s :=
  if_pos h

/-- Past its header a frame passed the checks at H1. -/
theorem frameWordsIn_fits (hhead : 2 ≤ (old ++ new).length) (hfits : old.length < 2 →
      frameLen (old ++ new) ≤ p.payloadMax ∧ frameWords (old ++ new) ≤ p.ringSize - (s.dev.port p).rxUsed) :
    frameWordsIn p old new s = if (old ++ new).length < frameWords (old ++ new) then laid p (old ++ new) false s
      else
        let s' := frameComplete p ((old ++ new).take (frameWords (old ++ new))) (laid p [] false s)
        if (old ++ new).length > frameWords (old ++ new) then { s' with dev := attnBit Attn.linkError p s'.dev } else s' := by
  have hlen : ¬ (old.length < 2 ∧ frameLen (old ++ new) > p.payloadMax) := fun h => Nat.not_le.2 h.2 (hfits h.1).1
  have hring : ¬ (old.length < 2 ∧ frameWords (old ++ new) > p.ringSize - (s.dev.port p).rxUsed) :=
    fun h => Nat.not_le.2 h.2 (hfits h.1).2
  exact (if_neg (Nat.not_lt.2 hhead)).trans ((if_neg hlen).trans (if_neg hring))

theorem frameWordsIn_partial (hhead : 2 ≤ (old ++ new).length) (hfits : old.length < 2 →
      frameLen (old ++ new) ≤ p.payloadMax ∧ frameWords (old ++ new) ≤ p.ringSize - (s.dev.port p).rxUsed)
    (hmore : (old ++ new).length < frameWords (old ++ new)) : frameWordsIn p old new s = laid p (old ++ new) false s :=
  (frameWordsIn_fits hhead hfits).trans (if_pos hmore)

theorem frameWordsIn_whole (hhead : 2 ≤ (old ++ new).length) (hfits : old.length < 2 →
      frameLen (old ++ new) ≤ p.payloadMax ∧ frameWords (old ++ new) ≤ p.ringSize - (s.dev.port p).rxUsed)
    (hwhole : (old ++ new).length = frameWords (old ++ new)) :
    frameWordsIn p old new s = frameComplete p (old ++ new) (laid p [] false s) := by
  rw [frameWordsIn_fits hhead hfits, if_neg (Nat.not_lt.2 (Nat.le_of_eq hwhole.symm))]
  dsimp only
  rw [if_neg (Nat.not_lt.2 (Nat.le_of_eq hwhole)), ← hwhole, List.take_length]

theorem frameWordsIn_tooLong (hhead : 2 ≤ new.length) (hlen : p.payloadMax < frameLen new) :
    frameWordsIn p [] new s = laid p new true (frameRefusal p new St.frameLength 0 s) :=
  (if_neg (Nat.not_lt.2 hhead)).trans (if_pos ⟨by decide, hlen⟩)

theorem frameWordsIn_noRoom (hhead : 2 ≤ new.length) (hlen : frameLen new ≤ p.payloadMax)
    (hring : p.ringSize - (s.dev.port p).rxUsed < frameWords new) :
    frameWordsIn p [] new s = laid p new true (frameRefusal p new St.busyRetry 0 s) :=
  (if_neg (Nat.not_lt.2 hhead)).trans ((if_neg fun h => Nat.not_lt.2 hlen h.2).trans (if_pos ⟨by decide, hring⟩))

end FrameWords

section WholeFrame
variable {p : Port} {ws : List Word} {s : State}

/-- The frame's checksum is that of its words (R194 check 4). -/
def crcGood (ws : List Word) : Prop := (crc32c (wordsBytes ws.dropLast)).toNat = fld (ws.getLastD 0) 31 0

/-- The frame is of a format version that the device reads (R194 check 5). -/
def versionKnown (p : Port) (ws : List Word) : Prop := (frameReq p ws).version = 2 ∨ (frameReq p ws).version = 3

theorem frameComplete_badCrc (h : ¬ crcGood ws) :
    frameComplete p ws s = frameRefusal p ws St.frameCrc (fld (ws.getLastD 0) 47 32) s :=
  if_pos h

theorem frameComplete_badVersion (hcrc : crcGood ws) (h : ¬ versionKnown p ws) :
    frameComplete p ws s = frameRefusal p ws St.formatVersion (fld (ws.getLastD 0) 47 32) s :=
  (if_neg (not_not_intro hcrc)).trans (if_pos (not_or.1 h))

theorem frameComplete_noCredit (hcrc : crcGood ws) (hversion : versionKnown p ws)
    (h : p.credits ≤ (s.flow.port p).mailbox + (s.flow.port p).ring.length) :
    frameComplete p ws s = frameRefusal p ws St.noCredit (fld (ws.getLastD 0) 47 32) s :=
  (if_neg (not_not_intro hcrc)).trans ((if_neg fun hbad => not_or.2 hbad hversion).trans (if_pos h))

/-- A frame that passes takes a credit and goes to acceptance, or to the boot ROM (R158, R197). -/
theorem frameComplete_accepted (hcrc : crcGood ws) (hversion : versionKnown p ws)
    (h : (s.flow.port p).mailbox + (s.flow.port p).ring.length < p.credits) :
    frameComplete p ws s =
      let n := ceilDiv (frameLen ws) 6
      let d := roused (s.dev.modPort p (fun x => { x with rxUsed := x.rxUsed + ws.length, heard := s.dev.now }))
      { s with
        flow := s.flow.setPort p { s.flow.port p with mailbox := (s.flow.port p).mailbox + 1 }
        dev := if d.boot.running then accepted p (frameReq p ws) (ws.take 2) (slice ws 2 n) (slice ws (2 + n) 2) d
          else romAccepted p (frameReq p ws) (slice ws 2 n) d } :=
  (if_neg (not_not_intro hcrc)).trans ((if_neg fun hbad => not_or.2 hbad hversion).trans (if_neg (Nat.not_le.2 h)))

end WholeFrame

@[simp] theorem roused_boot (d : Dev) : (roused d).boot = d.boot := by
  unfold roused; split <;> rfl

section Request
variable {p : Port} {s : State}

theorem requestFrame_start (words : List Word) (hlive : portLive s.dev p = true) :
    exec (.requestFrame p 0 words) s = .next (frameStart p words s) :=
  congrArg Host.Outcome.next ((if_pos hlive).trans (if_pos rfl))

theorem requestFrame_extends {old : List Word} (words : List Word) (hlive : portLive s.dev p = true) (hrx : (s.dev.port p).rx = old)
    (hold : old ≠ []) (halive : (s.dev.port p).rxDead = false) :
    exec (.requestFrame p old.length words) s = .next (frameWordsIn p old words s) := by
  have hoffset : old.length ≠ 0 := fun h => hold (List.length_eq_zero_iff.1 h)
  subst hrx
  refine congrArg Host.Outcome.next ((if_pos hlive).trans ((if_neg hoffset).trans ((if_neg (not_not_intro rfl)).trans (if_neg ?_))))
  rw [halive]
  exact Bool.false_ne_true

@[simp] theorem discardPartial_admitting (p : Port) (d : Dev) : ((discardPartial p d).port p).admitting = (d.port p).admitting := by
  unfold discardPartial; dsimp only; split
  · cases p <;> rfl
  · cases p <;> rfl

@[simp] theorem discardPartial_rxUsed (p : Port) (d : Dev) : ((discardPartial p d).port p).rxUsed = (d.port p).rxUsed := by
  unfold discardPartial; dsimp only; split
  · cases p <;> rfl
  · cases p <;> rfl

/-- Without a partial frame there is nothing to count or report. -/
theorem discardPartial_empty {d : Dev} (h : (d.port p).rx = []) :
    discardPartial p d = d.modPort p (fun x => { x with rx := [], rxDead := false }) := by
  refine if_pos ?_
  rw [h]
  rfl

theorem frameStart_admitted {words : List Word} (h : (s.dev.port p).admitting = true) :
    frameStart p words s = frameWordsIn p [] words { s with dev := discardPartial p s.dev } :=
  if_pos ((discardPartial_admitting p s.dev).trans h)

/-- A frame that begins with an empty buffer. -/
theorem frameStart_empty {words : List Word} (hadmits : (s.dev.port p).admitting = true) (hrx : (s.dev.port p).rx = []) :
    frameStart p words s = frameWordsIn p [] words (laid p [] false s) := by
  rw [frameStart_admitted hadmits, discardPartial_empty hrx]
  rfl

end Request

theorem frameBegins : FrameBegins := by
  refine ⟨fun p words s hlive hadmits hfirst => ?begins, fun p old words s hlive hrx hold halive hmore => ?grows⟩
  case begins =>
    rw [requestFrame_start words hlive, frameStart_admitted hadmits]
    by_cases hshort : words.length < 2
    · rw [frameWordsIn_short (old := []) hshort]
      rfl
    · obtain hshort' | ⟨hlen, hring, hmore⟩ := hfirst
      · exact absurd hshort' hshort
      · rw [frameWordsIn_partial (old := []) (Nat.le_of_not_lt hshort) (fun _ => ⟨hlen, by rw [discardPartial_rxUsed]; exact hring⟩) hmore]
        rfl
  case grows =>
    have hnonempty : old ≠ [] := by rintro rfl; simp at hold
    rw [requestFrame_extends words hlive hrx hnonempty halive,
      frameWordsIn_partial (by rw [List.length_append]; omega) (fun h => absurd hold (Nat.not_le.2 h)) hmore]
    rfl

section Completion
variable {p : Port} {s : State}

/-- A frame that comes whole over an empty buffer is completed at once. -/
theorem requestFrame_whole {ws : List Word} (hlive : portLive s.dev p = true) (hrx : (s.dev.port p).rx = [])
    (hadmits : (s.dev.port p).admitting = true) (hhead : 2 ≤ ws.length) (hlen : frameLen ws ≤ p.payloadMax)
    (hring : frameWords ws ≤ p.ringSize - (s.dev.port p).rxUsed) (hwhole : ws.length = frameWords ws) :
    exec (.requestFrame p 0 ws) s = .next (frameComplete p ws (laid p [] false s)) := by
  have hused : ((laid p [] false s).dev.port p).rxUsed = (s.dev.port p).rxUsed := by rw [laid, modPort_port]
  rw [requestFrame_start ws hlive, frameStart_empty hadmits hrx,
    frameWordsIn_whole (old := []) hhead (fun _ => ⟨hlen, hused.symm ▸ hring⟩) hwhole, laid_laid]
  rfl

/-- The last words of a frame complete it, whether or not it came whole. -/
theorem requestFrame_completes {old words : List Word} (hlive : portLive s.dev p = true) (hrx : (s.dev.port p).rx = old)
    (halive : (s.dev.port p).rxDead = false) (hadmits : old = [] → (s.dev.port p).admitting = true) (hhead : 2 ≤ (old ++ words).length)
    (hfits : old.length < 2 →
      frameLen (old ++ words) ≤ p.payloadMax ∧ frameWords (old ++ words) ≤ p.ringSize - (s.dev.port p).rxUsed)
    (hwhole : (old ++ words).length = frameWords (old ++ words)) :
    exec (.requestFrame p old.length words) s = .next (frameComplete p (old ++ words) (laid p [] false s)) := by
  by_cases hempty : old = []
  · subst hempty
    obtain ⟨hlen, hring⟩ := hfits (by decide)
    exact requestFrame_whole hlive hrx (hadmits rfl) hhead hlen hring hwhole
  · rw [requestFrame_extends words hlive hrx hempty halive, frameWordsIn_whole hhead hfits hwhole]

end Completion

theorem frameArrives : FrameArrives := by
  intro p old words s hlive hrx halive hadmits hhead hfits hwhole hcrc hversion hcredit
  refine (requestFrame_completes hlive hrx halive hadmits hhead hfits hwhole).trans (congrArg Host.Outcome.next ?_)
  rw [frameComplete_accepted (s := laid p [] false s) hcrc hversion hcredit]
  simp only [laid, modPort_modPort, roused_boot, modPort_boot, modPort_now]

/-- A frame that comes whole and fails a check of its header leaves its words there, dead; one that fails a later check leaves none. -/
theorem frameRefused : FrameRefused := by
  intro p ws s hlive hadmits hrx hhead
  have hused : ((laid p [] false s).dev.port p).rxUsed = (s.dev.port p).rxUsed := by rw [laid, modPort_port]
  have hstart : exec (.requestFrame p 0 ws) s = .next (frameWordsIn p [] ws (laid p [] false s)) := by
    rw [requestFrame_start ws hlive, frameStart_empty hadmits hrx]
  refine ⟨fun hlen => ?length, fun hlen hring => ?room, fun hlen hring hwhole => ?later⟩
  case length =>
    refine hstart.trans (congrArg Host.Outcome.next ?_)
    rw [frameWordsIn_tooLong hhead hlen, frameRefusal_laid, laid_laid]
    rfl
  case room =>
    refine hstart.trans (congrArg Host.Outcome.next ?_)
    rw [frameWordsIn_noRoom hhead hlen (hused.symm ▸ hring), frameRefusal_laid, laid_laid]
    rfl
  case later =>
    have hcomplete := requestFrame_whole hlive hrx hadmits hhead hlen hring hwhole
    exact ⟨fun hcrc => hcomplete.trans (congrArg Host.Outcome.next (frameComplete_badCrc hcrc)),
      fun hcrc hversion => hcomplete.trans (congrArg Host.Outcome.next (frameComplete_badVersion hcrc hversion)),
      fun hcrc hversion hcredit => hcomplete.trans (congrArg Host.Outcome.next (frameComplete_noCredit hcrc hversion hcredit))⟩

/-- The device without the partial frame of a port, counted and reported (R193). -/
def partialGone (p : Port) (d : Dev) : Dev :=
  attnBit Attn.partialDiscard p (d.modPort p (fun x => { x with rx := [], rxDead := false, discard := x.discard + 1 }))

theorem discardPartial_live {p : Port} {d : Dev} (h : (!(d.port p).rx.isEmpty && !(d.port p).rxDead) = true) :
    discardPartial p d = partialGone p d := by
  refine if_neg ?_
  rw [← Bool.not_or, Bool.not_eq_true'] at h
  rw [h]
  exact Bool.false_ne_true

/-- A frame that is gone is not discarded again. -/
theorem discardPartial_gone (p : Port) (d : Dev) : discardPartial p (partialGone p d) = partialGone p d := by
  cases p <;> rfl

theorem portLive_partialGone (p : Port) (d : Dev) : portLive (partialGone p d) p = portLive d p :=
  (portLive_modPort _ _ _ _).trans (portLive_modPort _ _ _ _)

/-- A frame begun over a partial one finds that gone. -/
theorem frameStart_gone {p : Port} {words : List Word} {s : State} (h : discardPartial p s.dev = partialGone p s.dev) :
    frameStart p words s = frameStart p words { s with dev := partialGone p s.dev } := by
  rw [frameStart, frameStart, h, discardPartial_gone]

theorem partialFrameGoes : PartialFrameGoes := by
  refine ⟨fun p => ?timeout, fun p => ?abort, fun p words s hlive hpartial => ?begun, fun p words => ?shut, fun p n words hn => ?offset⟩
  case timeout =>
    exact happens_of_lift (fun s => (rfl : exec _ s = execPartialFrameTimeout p s)) fun _ h => discardPartial_live h
  case abort =>
    refine happens_of_lift (fun s => (rfl : exec _ s = execAbortRx p s)) fun d h => ?_
    obtain ⟨hlive, hpartial⟩ := Bool.and_eq_true_iff.1 h
    exact (if_pos hlive).trans (discardPartial_live hpartial)
  case begun =>
    rw [requestFrame_start words hlive, frameStart_gone (discardPartial_live hpartial)]
    exact (requestFrame_start (s := { s with dev := partialGone p s.dev }) words ((portLive_partialGone p _).trans hlive)).symm
  case shut =>
    intro s h
    simp only [Bool.and_eq_true, Bool.not_eq_true', List.isEmpty_iff, and_assoc] at h
    obtain ⟨hlive, hshut, hrx⟩ := h
    have hstays : ¬ ((discardPartial p s.dev).port p).admitting = true := by rw [discardPartial_admitting, hshut]; exact Bool.false_ne_true
    refine (requestFrame_start words hlive).trans (congrArg Host.Outcome.next ((if_neg hstays).trans ?_))
    simp only [discardPartial_empty hrx, modPort_modPort]
  case offset =>
    intro s h
    obtain ⟨hlive, hwrong⟩ := Bool.and_eq_true_iff.1 h
    exact congrArg Host.Outcome.next ((if_pos hlive).trans ((if_neg hn).trans (if_pos (Ne.symm (bne_iff_ne.1 hwrong)))))

end Sys2Proof.Machine
end

section
/-! PROOFS. Register writes, and the replies' ways into the ring and out of it (R176-R179, R193, R198, R202, R610). -/
namespace Sys2Proof.Machine

/-- An index without a write of its own changes nothing (R176). -/
theorem portRegWrite_other {i : Nat} (h1 : i ≠ 1) (h2 : i ≠ 2) (h6 : i ≠ 6) (p : Port) (v : Word) (d : Dev) : portRegWrite p i v d = d := by
  unfold portRegWrite
  split
  next => exact absurd rfl h1
  next => exact absurd rfl h2
  next => exact absurd rfl h6
  next => rfl

theorem regWrite_other (p : Port) {i : Byte} (v : Word) (h1 : i ≠ 1) (h2 : i ≠ 2) (h6 : i ≠ 6) :
    Happens (.regWrite (.port p) i v) (fun _ => true) (fun d => d) := by
  refine happens_of_lift (g := fun d => if portLive d p then portRegWrite p i.toNat v d else d) (fun _ => rfl) fun d _ => ?_
  have hne : ∀ j : Byte, i ≠ j → i.toNat ≠ j.toNat := fun j h hj => h (BitVec.eq_of_toNat_eq hj)
  rw [portRegWrite_other (hne 1 h1) (hne 2 h2) (hne 6 h6), ite_self]

/-- Bit 0 of PORT_CONTROL aborts (R193). -/
theorem regWrite_control (p : Port) (v : Word) : Happens (.regWrite (.port p) 6 v) (fun d => portLive d p)
    (fun d => if v.getLsbD 0 then discardPartial p d else d) := by
  refine (regWrite_port p 6 v).narrow fun d h => ⟨h, ?_⟩
  change (if bitOf v 0 then discardPartial p d else d) = _
  rw [bitOf_eq_testBit]
  rfl

theorem registerWrites : RegisterWrites := by
  refine ⟨fun p v => regWrite_port p 1 v, fun p v => regWrite_port p 2 v, regWrite_control, fun p i v => regWrite_other p v,
    fun v => ?cause, fun v => ?mask⟩
  case cause =>
    refine happens_of_mgmtTouch (g := mgmtRegWrite 1 v) (fun _ => rfl) (fun _ => id) fun d _ => ?_
    rw [← awake_mgmt d]
    rfl
  case mask =>
    refine happens_of_mgmtTouch (g := mgmtRegWrite 2 v) (fun _ => rfl) (fun _ => id) fun d _ => ?_
    rw [← awake_mgmt d]
    rfl

theorem replyEnters : ReplyEnters := fun _ _ _ hfirst hfits hcredit hgoes => replyEnqueue_enters hfirst hfits hcredit hgoes

/-- The head goes when the host names its tag (R177). -/
theorem replyRelease_head {p : Port} {s : State} {x : RingReply} (hlive : portLive s.dev p = true)
    (hhead : headReply (s.flow.port p) = some x) :
    exec (.replyRelease p x.tag) s = .next { s with flow := s.flow.setPort p (dropHead (s.flow.port p)) } := by
  refine congrArg Host.Outcome.next (if_pos ?_)
  rw [hlive, hhead, Option.map_some, beq_self_eq_true]
  rfl

theorem replyLeaves : ReplyLeaves := by
  refine ⟨fun p x s hlive hslot hring => ?slot, fun p x rest s hlive hfirst hring => ?ring⟩
  case slot =>
    have hhead : headReply (s.flow.port p) = some x := by simp [headReply, hring, hslot]
    have hstays : ¬ ((s.flow.port p).ringHead || (s.flow.port p).refusal.isNone) = true := by rw [hring, hslot]; exact Bool.false_ne_true
    rw [replyRelease_head hlive hhead, dropHead, if_neg hstays]
  case ring =>
    have hgo : ((s.flow.port p).ringHead || (s.flow.port p).refusal.isNone) = true := by
      obtain hslot | hkept := hfirst
      · rw [hslot, Bool.or_comm]; rfl
      · rw [hkept]; rfl
    have hhead : headReply (s.flow.port p) = some x := by
      obtain hslot | hkept := hfirst
      · simp [headReply, hslot, hring]
      · simp [headReply, hkept, hring]
    rw [replyRelease_head hlive hhead, dropHead, if_pos hgo, hring]
    rfl

/-- Settles O23, a clause a rule: what a frame's words come to turns on the checks in the order of R194, and the ring's rows on the
head reply. -/
theorem linkEventsHappen : Obligations.LinkEventsHappen :=
  ⟨frameBegins, frameArrives, frameRefused, partialFrameGoes, registerWrites, replyEnters, replyLeaves,
    fun p => happens_of_lift (fun s => (rfl : exec _ s = execLinkError p s)) fun _ h => if_pos h⟩

end Sys2Proof.Machine
end

section
/-! PROOFS. Held replies go out at their time, and sessions without traffic close (R208, R221, R529, R709, R714, R717). -/
namespace Sys2Proof.Machine

/-- The reply held for a command is taken out and answered with the tick of its delivery. -/
theorem releaseHeld_some {k : HeldKind} {id : Nat} {d : Dev} {h : Held} (hheld : heldFor k id d = some h) (f : Reply → Dev → Dev) :
    releaseHeld k id f d = f { h.reply with tick := d.now } { d with held := d.held.erase h } := by
  unfold heldFor at hheld
  rw [releaseHeld, hheld]

/-- Outside a handover's pause a held refusal is released, its timer armed or not. -/
theorem refusalDelivery_releases (id : Nat) (armed : Bool) : Happens (.refusalDelivery id armed)
    (fun d => (heldFor .refusal id d).isSome && !handoverPause d)
    (releaseHeld .refusal id (fun x d => if armed then { d with done := d.done ++ [x] }
      else raiseFault 1 { d with done := d.done ++ [{ x with status := St.internalFault, words := [], bytes := 0 }] })) := by
  refine happens_of_lift (fun s => (rfl : exec _ s = execRefusalDelivery id armed s)) fun d h => if_neg ?_
  rw [Bool.and_eq_true, Bool.not_eq_true'] at h
  rw [h.2]
  exact Bool.false_ne_true

theorem refusalDelivery_armed (id : Nat) : Happens (.refusalDelivery id true)
    (fun d => (heldFor .refusal id d).isSome && !handoverPause d) (delivers .refusal id) := by
  refine (refusalDelivery_releases id true).narrow fun d h => ⟨h, ?_⟩
  obtain ⟨x, hx⟩ := Option.isSome_iff_exists.1 (Bool.and_eq_true_iff.1 h).1
  rw [releaseHeld_some hx, delivers, hx]
  rfl

theorem refusalDelivery_unarmed (id : Nat) : Happens (.refusalDelivery id false)
    (fun d => (heldFor .refusal id d).isSome && !handoverPause d) (fun d =>
      let h := (heldFor .refusal id d).getD {}
      raiseFault 1 { d with
        held := d.held.erase h, done := d.done ++ [{ h.reply with tick := d.now, status := St.internalFault, words := [], bytes := 0 }] }) := by
  refine (refusalDelivery_releases id false).narrow fun d h => ⟨h, ?_⟩
  obtain ⟨x, hx⟩ := Option.isSome_iff_exists.1 (Bool.and_eq_true_iff.1 h).1
  rw [releaseHeld_some hx, hx]
  rfl

theorem refusalDelivery_paused (id : Nat) (armed : Bool) : Happens (.refusalDelivery id armed) handoverPause (fun d => d) :=
  happens_of_lift (fun s => (rfl : exec _ s = execRefusalDelivery id armed s)) fun _ h => if_pos h

theorem sessionOpenReply_completes (id : Nat) : Happens (.sessionOpenReply id)
    (fun d => (heldFor .sessionOpen id d).isSome && dueHeld .sessionOpen id d) (fun d =>
      let h := (heldFor .sessionOpen id d).getD {}
      complete h.reply.req h.reply.status h.reply.words h.reply.bytes { d with held := d.held.erase h }) := by
  refine happens_of_lift (fun s => (rfl : exec _ s = execSessionOpenReply id s)) fun d h => ?_
  obtain ⟨hheld, hdue⟩ := Bool.and_eq_true_iff.1 h
  obtain ⟨x, hx⟩ := Option.isSome_iff_exists.1 hheld
  rw [if_pos hdue, releaseHeld_some hx, hx]
  rfl

theorem challengeReply_delivers (id : Nat) : Happens (.challengeReply id) (fun d => (heldFor .challenge id d).isSome)
    (delivers .challenge id) := by
  refine happens_of_lift (fun s => (rfl : exec _ s = execChallengeReply id s)) fun d h => ?_
  obtain ⟨x, hx⟩ := Option.isSome_iff_exists.1 h
  rw [releaseHeld_some hx, delivers, hx]
  rfl

theorem sessionIdleTimeout_closes (p : Port) (sid : Byte) : Happens (.sessionIdleTimeout p sid)
    (fun d => (sessionAt (d.port p) sid).any (fun x => decide (x.seen + x.idle * 4096 ≤ d.now))) (closeSession p sid) := by
  refine happens_of_lift (fun s => (rfl : exec _ s = execSessionIdleTimeout p sid s)) fun d h => ?_
  obtain ⟨x, hx, hidle⟩ := (Option.any_eq_true _ _).1 h
  rw [hx]
  exact if_pos (of_decide_eq_true hidle)

/-- Settles O24: each kind of held reply is the one release, at its own condition; an idle session closes by its row's own check. -/
theorem heldRepliesDelivered : Obligations.HeldRepliesDelivered :=
  ⟨refusalDelivery_armed, refusalDelivery_unarmed, refusalDelivery_paused, sessionOpenReply_completes, challengeReply_delivers,
    sessionIdleTimeout_closes⟩

end Sys2Proof.Machine
end

section
/-! PROOFS. A program of a chain ends after the random source has failed (R208, R420). -/
namespace Sys2Proof.Machine

/-- A SESSION_OPEN whose verification has run, with key generation, agreement and signature to follow. -/
def openVerified : PkJob := { req := { opcode := 0x0110 }, prog := 0x04, chain := [0x0A, 0x07, 0x03], work := .session 2 [] }

/-- Its verification has come to its fixed end, and the random source has failed since it began. -/
def sourceFailed : Dev :=
  { time := { tick := 100 }, sym := { randomOk := false }, pk := { engines := [{ job := some openVerified }, {}] } }

/-- The first engine is busy in the next state. -/
def leavesEngineBusy : Out → Bool
  | .next t => (engineJob t.dev 0).isSome
  | _ => false

/-- Key generation needs random words, so the chain ends here and its engine is free (R420). -/
theorem programEnd_sourceFailed : leavesEngineBusy (exec (.pkProgramEnd 0 true) { dev := sourceFailed }) = false := by decide

/-- Refutes O33: its clause for programs has the next program of a chain start whatever the random source, where the model, by R420, ends
with INTERNAL_FAULT a chain whose next program is no verification. -/
theorem not_engineJobsEnd : ¬ Obligations.EngineJobsEnd := by
  rintro ⟨-, -, -, -, -, -, -, -, hprograms⟩
  have hends := hprograms 0 true openVerified { dev := sourceFailed } (by decide)
  have hidle := programEnd_sourceFailed
  rw [hends] at hidle
  exact absurd hidle (by decide)

end Sys2Proof.Machine
end

section
/-! PROOFS. The commands over tenant records, their statistics and the engines' occupancy (R239, R284, R285, R547). -/
namespace Sys2Proof.Machine

theorem needOwnerTenant_ok {r : Req} (h : (r.tenant == 0) = true) : needOwnerTenant r = .ok () := need_ok h

/-- The staging area takes one edit while its edit count has room (R547). -/
theorem stageEdit_ok {d : Dev} (f : List Word → List Word) (h : ((staged d).edits != 0xFFFF) = true) :
    stageEdit f d = .ok { d with pat := { d.pat with
      staging := some { staged d with image := f (staged d).image, edits := (staged d).edits + 1 } } } := by
  rw [stageEdit, need_ok h, ok_bind]

theorem tenantWrite_holds : effTenantWrite.Holds := by
  refine HostEffect.holds_of_hostCmd (fun r s => (rfl : exec _ s = execTenantWrite r s)) fun r s d _ h => ?_
  simp only [effTenantWrite, Bool.and_eq_true, and_assoc] at h
  obtain ⟨hissuer, hsized, hrecord, hepoch, hedits⟩ := h
  rw [needOwnerTenant_ok hissuer, ok_bind, param_ok (by rw [hsized, hrecord]; rfl), ok_bind]
  dsimp only
  rw [need_ok hepoch, ok_bind, stageEdit_ok _ hedits]
  rfl

theorem tenantRemove_holds : effTenantRemove.Holds := by
  refine HostEffect.holds_of_hostCmd (fun r s => (rfl : exec _ s = execTenantRemove r s)) fun r s d _ h => ?_
  simp only [effTenantRemove, Bool.and_eq_true, and_assoc] at h
  obtain ⟨hissuer, hsized, hbits, hopen, hpair, hthere, hedits⟩ := h
  rw [needOwnerTenant_ok hissuer, ok_bind]
  dsimp only
  rw [param_ok (by rw [hsized, hbits, hopen, hpair, hthere]; rfl), ok_bind, stageEdit_ok _ hedits]
  rfl

/-- A one-byte field of a word, taken as a byte, has the field's value (R7). -/
theorem ofNat_byteField (w : Word) (lo : Nat) : (BitVec.ofNat 8 (fld w (lo + 7) lo)).toNat = fld w (lo + 7) lo := by
  have hwidth : lo + 7 + 1 - lo = 8 := by omega
  rw [BitVec.toNat_ofNat, fld, hwidth, Nat.mod_mod]

/-- A tenant field that is not 0xFF names no open tenant. -/
theorem tenantField_ne {r : Req} (h : (r.f 0 47 40 != 0xFF) = true) : (BitVec.ofNat 8 (r.f 0 47 40) != 0xFF) = true := by
  rw [bne_iff_ne] at h ⊢
  intro heq
  have hbyte := ofNat_byteField (r.w 0) 40
  exact h (hbyte.symm.trans (congrArg BitVec.toNat heq))

theorem tenantRead_holds : effTenantRead.Holds := by
  refine HostEffect.holds_of_hostCmd (fun r s => (rfl : exec _ s = execTenantRead r s)) fun r s d _ h => ?_
  simp only [effTenantRead, Bool.and_eq_true, and_assoc] at h
  obtain ⟨hissuer, hsized, hbits, hopen, hthere⟩ := h
  obtain ⟨x, hx⟩ := Option.isSome_iff_exists.1 hthere
  rw [need_ok hissuer, ok_bind]
  dsimp only
  rw [param_ok (by rw [hsized, hbits, tenantField_ne hopen]; rfl), ok_bind]
  simp only [effTenantRead, hx]
  rfl

theorem tenantList_holds : effTenantList.Holds := by
  refine HostEffect.holds_of_hostCmd (fun r s => (rfl : exec _ s = execTenantList r s)) fun r s d _ h => ?_
  obtain ⟨hissuer, hlen⟩ := Bool.and_eq_true_iff.1 h
  rw [needOwnerTenant_ok hissuer, ok_bind, param_ok hlen]
  rfl

theorem tenantStats_holds : effTenantStats.Holds := by
  refine HostEffect.holds_of_hostCmd (fun r s => (rfl : exec _ s = execTenantStats r s)) fun r s d _ h => ?_
  obtain ⟨hissuer, hlen⟩ := Bool.and_eq_true_iff.1 h
  rw [needTenant_ok hissuer, ok_bind, param_ok hlen]
  rfl

/-- The reply's length follows from its words: the first tick of the buckets and 32 words of eight codes. -/
theorem engineOccupancy_holds : effEngineOccupancy.Holds := by
  refine HostEffect.holds_of_hostCmd (fun r s => (rfl : exec _ s = execEngineOccupancy r s)) fun r s d _ h => ?_
  obtain ⟨hissuer, hlen⟩ := Bool.and_eq_true_iff.1 h
  rw [needOwnerTenant_ok hissuer, ok_bind, param_ok hlen]
  rfl

/-- Settles O2, a clause a row. -/
theorem tenantCommandsComplete : Obligations.TenantCommandsComplete :=
  ⟨tenantWrite_holds, tenantRemove_holds, tenantRead_holds, tenantList_holds, tenantStats_holds, engineOccupancy_holds⟩

end Sys2Proof.Machine
end

section
/-! PROOFS. HASH and the hash streams (R262, R268, R379, R386). -/
namespace Sys2Proof.Machine

theorem hash_holds : effHash.Holds := by
  refine HostEffect.holds_of_hostCmd (fun r s => (rfl : exec _ s = execHash r s)) fun r s d _ h => ?_
  simp only [effHash, Bool.and_eq_true, and_assoc] at h
  obtain ⟨htenant, halg, hmin, hmax, hpad, hserves⟩ := h
  rw [needTenant_ok htenant, ok_bind]
  dsimp only
  rw [param_ok (by rw [halg, hmin, hmax, hpad]; rfl), ok_bind, need_ok hserves]
  rfl

theorem hashStreamOpen_holds : effHashStreamOpen.Holds := by
  refine HostEffect.holds_of_hostCmd (fun r s => (rfl : exec _ s = execHashStreamOpen r s)) fun r s d _ h => ?_
  simp only [effHashStreamOpen, Bool.and_eq_true, and_assoc] at h
  obtain ⟨htenant, hsized, hbits, halg, hserves⟩ := h
  rw [needTenant_ok htenant, ok_bind, param_ok (by rw [hsized, hbits, halg]; rfl), ok_bind, need_ok hserves, ok_bind]
  exact outcome_startLong _ _ _ _ _ _ _

/-- A chunk of a hash stream names a running operation of the tenant's that holds the data so far. -/
theorem long_of_hashStreamOf {r : Req} {d : Dev} {h : BitVec 24} {g alg : Nat} {old : List Byte}
    (hstream : hashStreamOf r d = some (h, g, alg, old)) :
    ∃ l, needLong r (r.f 0 23 0) 4 d = .ok l ∧ longRunning l = true ∧ l.data = .hashStream alg old ∧ l.handle = h ∧ l.gen = g := by
  unfold hashStreamOf at hstream
  cases hlong : needLong r (r.f 0 23 0) 4 d with
  | error e => rw [hlong] at hstream; cases hstream
  | ok l =>
    rw [hlong] at hstream
    dsimp only at hstream
    split at hstream
    next a old' hdata =>
      obtain ⟨hruns, heq⟩ := (Option.ite_none_right_eq_some).1 hstream
      obtain ⟨rfl, rfl, rfl, rfl⟩ : l.handle = h ∧ l.gen = g ∧ a = alg ∧ old' = old := by simpa using heq
      exact ⟨l, rfl, hruns, hdata, rfl, rfl⟩
    next => cases hstream

theorem hashStreamChunk_holds : effHashStreamChunk.Holds := by
  refine HostEffect.holds_of_hostCmd (fun r s => (rfl : exec _ s = execHashStreamChunk r s)) fun r s d _ h => ?_
  simp only [effHashStreamChunk, Bool.and_eq_true, and_assoc] at h
  obtain ⟨htenant, hhead, hlenBits, hmin, hmax, hpad, hserves, hsome⟩ := h
  obtain ⟨⟨hd, g, alg, old⟩, hstream⟩ := Option.isSome_iff_exists.1 hsome
  obtain ⟨l, hlong, hruns, hdata, rfl, rfl⟩ := long_of_hashStreamOf hstream
  rw [needTenant_ok htenant, ok_bind]
  dsimp only
  rw [param_ok (by rw [hhead, hlenBits]; rfl), ok_bind, param_ok (by rw [hmin, hmax, hpad]; rfl), ok_bind, hlong, ok_bind,
    param_ok hruns, ok_bind, need_ok hserves, ok_bind]
  simp only [effHashStreamChunk, hstream, hdata]
  cases bitOf (r.w 0) 24 with
  | true => rfl
  | false => rfl

/-- Settles O7, a clause a row. -/
theorem hashCommandsAnswer : Obligations.HashCommandsAnswer := ⟨hash_holds, hashStreamOpen_holds, hashStreamChunk_holds⟩

end Sys2Proof.Machine
end

section
/-! PROOFS. Class 0x0E: the reports on long operations and the commands that steer them (R262-R272, R286, R287). -/
namespace Sys2Proof.Machine

/-- The two ways in which the model compares the states of operations agree. -/
theorem longState_beq (a b : LongState) : (a == b) = decide (a = b) := rfl

/-- The operation that a command names and may act on is the one at its handle (R264). -/
theorem ownLong_ok {any : Bool} {r : Req} {d : Dev} {l : LongOp} (h : longOf any r d = some l) :
    ownLong r any d = .ok l ∧ longAt d (BitVec.ofNat 24 (r.f 0 23 0)) = some l := by
  obtain ⟨x, hat, hx⟩ := Option.bind_eq_some_iff.1 h
  obtain ⟨hmay, heq⟩ := Option.ite_none_right_eq_some.1 hx
  obtain rfl : x = l := Option.some.inj heq
  simp only [Bool.and_eq_true, and_assoc] at hmay
  obtain ⟨hsized, hbits, hallowed⟩ := hmay
  refine ⟨?_, hat⟩
  rw [ownLong, param_ok (by rw [hsized, hbits]; rfl), ok_bind, hat]
  dsimp only
  rw [need_ok hallowed, ok_bind]

/-- The operation at a handle carries that handle. -/
theorem handle_of_longAt {d : Dev} {h : BitVec 24} {l : LongOp} (hat : longAt d h = some l) : l.handle = h :=
  eq_of_beq (List.find?_some (p := fun x : LongOp => x.handle == h) hat)

theorem longStatus_holds : effLongStatus.Holds := by
  refine HostEffect.holds_of_hostCmd (fun r s => (rfl : exec _ s = execLongStatus r s)) fun r s d _ h => ?_
  obtain ⟨htenant, hsome⟩ := Bool.and_eq_true_iff.1 h
  obtain ⟨l, hl⟩ := Option.isSome_iff_exists.1 hsome
  rw [needTenant_ok htenant, ok_bind, (ownLong_ok hl).1, ok_bind]
  simp only [effLongStatus, hl]
  rfl

theorem longSuspend_holds : effLongSuspend.Holds := by
  refine HostEffect.holds_of_hostCmd (fun r s => (rfl : exec _ s = execLongSuspend r s)) fun r s d _ h => ?_
  obtain ⟨htenant, hany⟩ := Bool.and_eq_true_iff.1 h
  obtain ⟨l, hl, hstate⟩ := (Option.any_eq_true _ _).1 hany
  simp only [longState_beq] at hstate
  rw [needTenant_ok htenant, ok_bind, (ownLong_ok hl).1, ok_bind, param_ok hstate]
  simp only [effLongSuspend, hl]
  rfl

theorem longResume_holds : effLongResume.Holds := by
  intro r s hserved h
  obtain ⟨htenant, hany⟩ := Bool.and_eq_true_iff.1 h
  obtain ⟨l, hl, hstate⟩ := (Option.any_eq_true _ _).1 hany
  simp only [longState_beq] at hstate
  change execLongResume r s = _
  rw [execLongResume, lift, if_pos ⟨hserved.1, hserved.2.1⟩, serve_eq _ _ hserved, needTenant_ok htenant, ok_bind,
    (ownLong_ok hl).1, ok_bind, param_ok hstate]
  simp only [effLongResume, hl]
  rfl

theorem longCancel_holds : effLongCancel.Holds := by
  refine HostEffect.holds_of_hostCmd (fun r s => (rfl : exec _ s = execLongCancel r s)) fun r s d _ h => ?_
  obtain ⟨htenant, hsome⟩ := Bool.and_eq_true_iff.1 h
  obtain ⟨l, hl⟩ := Option.isSome_iff_exists.1 hsome
  rw [needTenant_ok htenant, ok_bind, (ownLong_ok hl).1, ok_bind]
  simp only [effLongCancel, hl]
  rfl

/-- The handle of an operation that is there goes, with the queue slot of a command's operation (R270, R278). -/
theorem dropLong_eq {h : BitVec 24} {d : Dev} {l : LongOp} (hat : longAt d h = some l) :
    dropLong h d = { (if l.internal then d else freeSlot l.cmd d) with
      sched := { (if l.internal then d else freeSlot l.cmd d).sched with
        longs := (if l.internal then d else freeSlot l.cmd d).sched.longs.filter (fun x => x.handle != h) } } := by
  rw [dropLong, hat]

theorem longRelease_holds : effLongRelease.Holds := by
  refine HostEffect.holds_of_hostCmd (fun r s => (rfl : exec _ s = execLongRelease r s)) fun r s d _ h => ?_
  obtain ⟨htenant, hany⟩ := Bool.and_eq_true_iff.1 h
  obtain ⟨l, hl, hfinal⟩ := (Option.any_eq_true _ _).1 hany
  obtain ⟨hown, hat⟩ := ownLong_ok hl
  have hthere : longAt d l.handle = some l := by rw [handle_of_longAt hat, hat]
  rw [needTenant_ok htenant, ok_bind, hown, ok_bind, param_ok hfinal, ok_bind, dropLong_eq hthere]
  simp only [effLongRelease, hl]
  rfl

theorem longList_holds : effLongList.Holds := by
  refine HostEffect.holds_of_hostCmd (fun r s => (rfl : exec _ s = execLongList r s)) fun r s d _ h => ?_
  obtain ⟨htenant, hlen⟩ := Bool.and_eq_true_iff.1 h
  rw [needTenant_ok htenant, ok_bind, param_ok hlen]
  rfl

/-- Settles O18: each row acts on the operation that its handle names. -/
theorem longCommandsComplete : Obligations.LongCommandsComplete :=
  ⟨longStatus_holds, longSuspend_holds, longResume_holds, longCancel_holds, longRelease_holds, longList_holds⟩

end Sys2Proof.Machine
end

section
/-! PROOFS. Windows of engine time, deadlines, the limits of long operations, run-ahead staging and zeroisation (R243, R250, R258-R272,
R274-R277, R328, R329). -/
namespace Sys2Proof.Machine

theorem find?_none_of_not_any {α : Type} {p : α → Bool} {l : List α} (h : (!l.any p) = true) : l.find? p = none := by
  simpa using h

theorem engineWindow_begins : Happens .engineWindow (fun d => decide (d.sched.window < d.now / 4096))
    (fun d => fillLanes (fillEngines 600 { d with sched := { d.sched with
      window := d.now / 4096, stats := d.sched.stats.map (fun x => { x with laneUs := 0, pkUs := 0, urgent := 0 }) } })) :=
  happens_of_lift (fun s => (rfl : exec _ s = execEngineWindow s)) fun _ h => if_pos (of_decide_eq_true h)

theorem deadlineExpiry_command (id : Nat) (r : Req) : Happens (.deadlineExpiry id)
    (fun d => d.cmds.find? (fun x => x.id == id && decide (x.deadline < d.now)) == some r)
    (fun d => refuseWith r St.deadline 0 (taken r d)) := by
  refine happens_of_lift (fun s => (rfl : exec _ s = execDeadlineExpiry id s)) fun d h => ?_
  dsimp only
  rw [eq_of_beq h]
  rfl

theorem deadlineExpiry_laneJob (id : Nat) (j : CipherJob) : Happens (.deadlineExpiry id)
    (fun d => !d.cmds.any (fun x => x.id == id && decide (x.deadline < d.now))
      && d.sym.waiting.find? (fun x => x.req.id == id && decide (x.req.deadline < d.now)) == some j)
    (fun d => refuseWith j.req St.deadline 0 { d with sym := { d.sym with waiting := d.sym.waiting.erase j } }) := by
  refine happens_of_lift (fun s => (rfl : exec _ s = execDeadlineExpiry id s)) fun d h => ?_
  obtain ⟨hcmds, hjob⟩ := Bool.and_eq_true_iff.1 h
  dsimp only
  rw [find?_none_of_not_any hcmds, eq_of_beq hjob]

theorem deadlineExpiry_queued (id : Nat) (l : LongOp) : Happens (.deadlineExpiry id)
    (fun d => !d.cmds.any (fun x => x.id == id && decide (x.deadline < d.now))
      && !d.sym.waiting.any (fun x => x.req.id == id && decide (x.req.deadline < d.now))
      && !d.pk.waiting.any (fun x => !isRsaJob x && x.req.id == id && decide (x.req.deadline < d.now))
      && d.sched.longs.find? (fun x => x.cmd == id && !x.internal && x.state = .queued && decide (x.deadline < d.now)) == some l)
    (finishLong l.handle .failed St.deadline) := by
  refine happens_of_lift (fun s => (rfl : exec _ s = execDeadlineExpiry id s)) fun d h => ?_
  simp only [Bool.and_eq_true, and_assoc] at h
  obtain ⟨hcmds, hlanes, hengines, hlong⟩ := h
  dsimp only
  rw [find?_none_of_not_any hcmds, find?_none_of_not_any hlanes, find?_none_of_not_any hengines, eq_of_beq hlong]

theorem longSuspensionPoint_acts (h : BitVec 24) : Happens (.longSuspensionPoint h)
    (fun d => (longAt d h).any (fun l => match l.data with
      | .applet _ _ _ => false
      | _ => true))
    (fun d => closeMixed (flushOwed (suspensionPoint h d))) := by
  refine happens_of_lift (fun s => (rfl : exec _ s = execLongSuspensionPoint h s)) fun d hany => ?_
  obtain ⟨l, hat, hdata⟩ := (Option.any_eq_true _ _).1 hany
  rw [hat]
  dsimp only
  split
  next a x n happlet =>
    rw [happlet] at hdata
    exact absurd hdata Bool.false_ne_true
  next => rfl

theorem suspendLimitExpiry_cancels (h : BitVec 24) : Happens (.suspendLimitExpiry h)
    (fun d => (longAt d h).any (fun l => l.state == .suspended && decide (l.suspTick + d.cfg 8 27 16 * 4096 < d.now)))
    (fun d => flushOwed (cancelLong h d)) := by
  refine happens_of_lift (fun s => (rfl : exec _ s = execSuspendLimitExpiry h s)) fun d hany => ?_
  obtain ⟨l, hat, hover⟩ := (Option.any_eq_true _ _).1 hany
  rw [longState_beq] at hover
  rw [hat]
  exact if_pos hover

theorem handleExpiry_frees (h : BitVec 24) (l : LongOp) : Happens (.handleExpiry h)
    (fun d => longAt d h == some l && l.state.final && decide (l.endTick + 245760 ≤ d.now))
    (fun d =>
      let x := if l.internal then d else freeSlot l.cmd d
      { x with sched := { x.sched with longs := x.sched.longs.filter (fun y => y.handle != h) } }) := by
  refine happens_of_lift (fun s => (rfl : exec _ s = execHandleExpiry h s)) fun d hdue => ?_
  simp only [Bool.and_eq_true, and_assoc] at hdue
  obtain ⟨hthere, hfinal, hlate⟩ := hdue
  have hat := eq_of_beq hthere
  rw [hat]
  dsimp only
  rw [if_pos (by rw [hfinal, hlate]; rfl), dropLong_eq hat]

theorem flaconStage_stages (id : Nat) (r : Req) (f : List Word) (m : List Byte) (x : Dev) : Happens (.flaconStage id)
    (fun d => d.cmds.find? (fun r => r.id == id) == some r && (queuedFlacon r).map (fun g => g.take (flaconLen g)) == some f && amongFour r d
      && !d.keys.staged.any (fun y => y.id == id) && slotType (fld (wd f 0) 31 24)
      && decide (cacheHeld d r.tenant + cacheCost (fld (wd f 0) 31 24) ≤ quotaOf d r recCache)
      && (match unwrapFlacon r f d with
        | .ok y => y == (m, x)
        | .error _ => false))
    (fun _ => traceT Core.sch 21 r.tenant (word r.tenant.toNat) (word (Config.unstated 21 [id])) { x with keys := { x.keys with
      staged := x.keys.staged ++ [{ id := id, tenant := r.tenant, entries := cacheCost (fld (wd f 0) 31 24), material := m }] } }) := by
  refine happens_of_lift (fun s => (rfl : exec _ s = execFlaconStage id s)) fun d h => ?_
  simp only [Bool.and_eq_true, and_assoc] at h
  obtain ⟨hfind, hflacon, hfour, hnew, hslot, hroom, hunwrap⟩ := h
  obtain ⟨g, hqueued, rfl⟩ := Option.map_eq_some_iff.1 (eq_of_beq hflacon)
  rw [eq_of_beq hfind]
  dsimp only
  rw [hqueued]
  dsimp only
  rw [if_pos (by rw [hfour, hnew, hslot, hroom]; rfl)]
  cases hopens : unwrapFlacon r (g.take (flaconLen g)) d with
  | error e => rw [hopens] at hunwrap; cases hunwrap
  | ok y =>
    rw [hopens] at hunwrap
    rw [eq_of_beq hunwrap]

theorem cacheZeroiseEnd_frees : Happens (.cacheZeroiseEnd true) (fun d => d.keys.zeroising != 0)
    (fun d => { d with keys := { d.keys with zeroising := d.keys.zeroising - 1 } }) :=
  happens_of_lift (fun s => (rfl : exec _ s = execCacheZeroiseEnd true s)) fun _ h => if_neg (bne_iff_ne.1 h)

theorem cacheZeroiseEnd_fences : Happens (.cacheZeroiseEnd false) (fun d => d.keys.zeroising != 0)
    (fun d => raiseFault 2 { d with keys := { d.keys with zeroising := d.keys.zeroising - 1, fencedEntries := d.keys.fencedEntries + 1 } }) :=
  happens_of_lift (fun s => (rfl : exec _ s = execCacheZeroiseEnd false s)) fun _ h => if_neg (bne_iff_ne.1 h)

/-- Settles O32, a clause an event. -/
theorem scheduleEventsHappen : Obligations.ScheduleEventsHappen :=
  ⟨engineWindow_begins, deadlineExpiry_command, deadlineExpiry_laneJob, deadlineExpiry_queued, longSuspensionPoint_acts,
    suspendLimitExpiry_cancels, handleExpiry_frees, flaconStage_stages, cacheZeroiseEnd_frees, cacheZeroiseEnd_fences⟩

end Sys2Proof.Machine
end

section
/-! PROOFS. Cipher jobs and stream chunks that start on a lane, and streams that open (R244, R302, R321, R342, R363-R366, R388). -/
namespace Sys2Proof.Machine

theorem lanesReady_needLanes {d : Dev} {level : Nat} (h : lanesReady d level = true) : needLanes d level = .ok () := by
  obtain ⟨hserves, hlevel⟩ := Bool.and_eq_true_iff.1 h
  rw [needLanes, need_ok hserves, ok_bind, need_ok hlevel]

theorem ivNow_eq_some {r : Req} {x : Slot} {a : CipherArgs} {d e : Dev} {iv : List Byte} (h : ivNow r x a d = some (iv, e)) :
    drawIv r x a d = .ok (.use iv e) := by
  unfold ivNow at h
  split at h
  next hdraw => rw [hdraw]; cases h; rfl
  next => cases h

/-- A command binds its parameter block, then its slot, then its IV, each over the device the step before left (R302, R321, R345). -/
theorem cipherPins_eq_some {r : Req} {op : Nat} {d e : Dev} {a : CipherArgs} {x : Slot} {iv : List Byte}
    (h : cipherPins r op d = some (a, x, iv, e)) : cipherArgs r op d = .ok a
      ∧ ∃ e', useSlot r (r.w 0) (some (modeUsage a.mode a.dec)) d = .ok (x, e') ∧ drawIv r x a e' = .ok (.use iv e) := by
  unfold cipherPins at h
  cases hargs : cipherArgs r op d with
  | error _ => rw [hargs] at h; cases h
  | ok b =>
    rw [hargs] at h
    dsimp only at h
    cases hslot : useSlot r (r.w 0) (some (modeUsage b.mode b.dec)) d with
    | error _ => rw [hslot] at h; cases h
    | ok y =>
      rw [hslot] at h
      obtain ⟨p, hp, heq⟩ := Option.map_eq_some_iff.1 h
      cases heq
      exact ⟨rfl, _, hslot, ivNow_eq_some hp⟩

/-- A lane command that the device holds goes its way when a lane can take it. -/
theorem laneCmd_eq {op : Nat} {r : Req} {s : State} (go : Dev → Dev) (hserved : Served op r s.dev)
    (hfree : canDispatch (taken r s.dev) r = true) : laneCmd op r go s = .next { s with dev := go s.dev } := by
  have hfree' : canDispatch s.dev r = true := hfree
  rw [laneCmd, lift, if_pos ⟨hserved.1, hserved.2.1⟩, if_pos hfree']

/-- What a cipher command pins goes with its job to a lane. -/
theorem dispatchCipher_places {r : Req} {op : Nat} {d e : Dev} {a : CipherArgs} {x : Slot} {iv : List Byte}
    (hpins : cipherPins r op d = some (a, x, iv, e)) (hlanes : lanesReady d (levelOf d r.gen a.level) = true) :
    dispatchCipher r op d = .ok (placeJob { req := r, slot := x.ref, key := x.material, mode := a.mode, dec := a.dec, iv := iv
                                            aad := a.aad, data := a.data, tag := a.tag, tlen := a.tlen
                                            level := levelOf d r.gen a.level } e, .later) := by
  obtain ⟨hargs, e', hslot, hdraw⟩ := cipherPins_eq_some hpins
  rw [dispatchCipher, hargs, ok_bind]
  dsimp only
  rw [lanesReady_needLanes hlanes, ok_bind, hslot, ok_bind]
  dsimp only
  rw [hdraw]
  rfl

theorem cipher_holds {op : Nat} {row : Req → Instr} (hexec : ∀ r s, exec (row r) s = laneCmd op r (serveCipher r op) s) :
    (effCipher op row).Holds := by
  intro r s (hserved : Served op r s.dev) h
  simp only [effCipher, Bool.and_eq_true, and_assoc] at h
  obtain ⟨htenant, hfree, hany⟩ := h
  obtain ⟨⟨a, x, iv, e⟩, hpins, hlanes⟩ := (Option.any_eq_true _ _).1 hany
  change exec (row r) s = _
  rw [hexec, laneCmd_eq _ hserved hfree, serveCipher, serve_eq _ _ hserved, needTenant_ok htenant, ok_bind,
    dispatchCipher_places hpins hlanes]
  simp only [effCipher, hpins]
  rfl

theorem streamOpen_holds : effStreamOpen.Holds := by
  refine HostEffect.holds_of_hostCmd (fun r s => (rfl : exec _ s = execStreamOpen r s)) fun r s d _ h => ?_
  obtain ⟨htenant, hany⟩ := Bool.and_eq_true_iff.1 h
  obtain ⟨⟨a, x, iv, e⟩, hpins, hready⟩ := (Option.any_eq_true _ _).1 hany
  obtain ⟨hlanes, hrelease⟩ := Bool.and_eq_true_iff.1 hready
  have hright : (!a.release || hasRight d r 4) = true := by
    rw [Bool.or_and_distrib_left, Bool.and_eq_true] at hrelease
    exact hrelease.1
  have hslotRelease : (!a.release || x.streamRel) = true := by
    rw [Bool.or_and_distrib_left, Bool.and_eq_true] at hrelease
    exact hrelease.2
  obtain ⟨hargs, e', hslot, hdraw⟩ := cipherPins_eq_some hpins
  rw [needTenant_ok htenant, ok_bind, openStream, hargs, ok_bind, need_ok hright, ok_bind]
  dsimp only
  rw [lanesReady_needLanes hlanes, ok_bind, hslot, ok_bind]
  dsimp only
  rw [need_ok hslotRelease, ok_bind, hdraw, ok_bind]
  simp only [effStreamOpen, hpins]
  exact outcome_startLong _ _ _ _ _ _ _

/-- A chunk of a cipher stream names a running operation of the tenant's that holds the stream. -/
theorem long_of_cipherStreamOf {r : Req} {d : Dev} {l : LongOp} {x : StreamOp} (h : cipherStreamOf r d = some (l, x)) :
    needLong r (r.f 0 23 0) 4 d = .ok l ∧ longRunning l = true ∧ l.data = .stream x := by
  unfold cipherStreamOf at h
  cases hlong : needLong r (r.f 0 23 0) 4 d with
  | error _ => rw [hlong] at h; cases h
  | ok l' =>
    rw [hlong] at h
    dsimp only at h
    split at h
    next y hdata =>
      obtain ⟨hruns, heq⟩ := Option.ite_none_right_eq_some.1 h
      cases heq
      exact ⟨rfl, hruns, hdata⟩
    next => cases h

theorem streamChunk_holds : effStreamChunk.Holds := by
  intro r s (hserved : Served 0x0411 r s.dev) h
  simp only [effStreamChunk, Bool.and_eq_true, and_assoc] at h
  obtain ⟨htenant, hfree, hidle, hhead, hlenBits, hmin, hmax, hpad, hany⟩ := h
  obtain ⟨⟨l, x⟩, hstream, hrules⟩ := (Option.any_eq_true _ _).1 hany
  obtain ⟨hkept, hlanes⟩ := Bool.and_eq_true_iff.1 hrules
  obtain ⟨hinput, hgcm⟩ := Bool.and_eq_true_iff.1 hkept
  obtain ⟨hform, hctr⟩ := Bool.and_eq_true_iff.1 hinput
  obtain ⟨hlong, hruns, hdata⟩ := long_of_cipherStreamOf hstream
  have hnone : ¬ chunkInWork (taken r s.dev) (BitVec.ofNat 24 (r.f 0 23 0)) = true := by simpa using hidle
  change ¬ chunkInWork s.dev (BitVec.ofNat 24 (r.f 0 23 0)) = true at hnone
  change execStreamChunk r s = _
  rw [execStreamChunk, laneCmd_eq _ hserved hfree, if_neg hnone, serveChunk, serve_eq _ _ hserved, needTenant_ok htenant, ok_bind,
    dispatchChunk, param_ok (by rw [hhead, hlenBits]; rfl), ok_bind, param_ok (by rw [hmin, hmax, hpad]; rfl), ok_bind, hlong, ok_bind,
    param_ok hruns, ok_bind, hdata]
  dsimp only
  rw [param_ok hform, ok_bind, param_ok hctr, ok_bind, param_ok hgcm, ok_bind, lanesReady_needLanes hlanes]
  simp only [effStreamChunk, hstream]
  rfl

/-- Settles O6: a job starts with what its command pinned, over the device that the pinning left. -/
theorem cipherCommandsStart : Obligations.CipherCommandsStart :=
  ⟨cipher_holds fun _ _ => rfl, cipher_holds fun _ _ => rfl, streamOpen_holds, streamChunk_holds⟩

end Sys2Proof.Machine
end

section
/-! PROOFS. PK_SIGN, PK_VERIFY, PK_AGREE and PK_KEM_PUBLIC start their program (R251, R395, R398, R401, R414, R421-R423). -/
namespace Sys2Proof.Machine

/-- A served command that dispatch comes to, in time for its programs, is its issuer check and its body (R251, R259). -/
theorem pkCmd_dispatched {op : Nat} {r : Req} {s : State} (hserved : Served op r s.dev) (hready : pkReadyNow (taken r s.dev) r = true)
    (hintime : pastDeadline (taken r s.dev) r (programsOf (taken r s.dev) r) = false) :
    pkCmd op r s = .next { s with dev := dispatchedPk r (unready r (taken r s.dev)) } := by
  have hready' : pkReadyNow s.dev r = true := hready
  have hserve := serve_eq (op := op) (fun _ => pkIssuer r) (fun d => do
    need (!(pastDeadline d r (programsOf d r))) St.deadline
    pkBody r d) (show Served op r (unready r s.dev) from hserved)
  have hpasses : need (!pastDeadline (unready r (taken r s.dev)) r (programsOf (unready r (taken r s.dev)) r)) St.deadline = .ok () :=
    need_ok (by rw [Bool.not_eq_true']; exact hintime)
  rw [pkCmd, lift, if_pos ⟨hserved.1, hserved.2.1⟩, if_pos hready']
  refine congrArg (fun d : Dev => Host.Outcome.next { s with dev := d }) (hserve.trans ?_)
  exact congrArg (fun x => settle r (unready r (taken r s.dev)) (pkIssuer r >>= fun _ => x >>= fun _ => pkBody r (unready r (taken r s.dev))))
    hpasses

/-- A command without a program waits for none. -/
theorem pkCmd_noProgram {op : Nat} {r : Req} {s : State} (hserved : Served op r s.dev) (hnone : programsOf (taken r s.dev) r = []) :
    pkCmd op r s = .next { s with dev := dispatchedPk r (unready r (taken r s.dev)) } :=
  pkCmd_dispatched hserved (by simp [pkReadyNow, pkDecides, hnone]) (by rw [hnone]; rfl)

theorem opcode_of_served {op : Nat} {r : Req} {d : Dev} (h : Served op r d) : r.opcode.toNat = op := h.2.1

/-- A program that can start passes the checks of its resources (R398, R419, R420). -/
theorem needProg_ok {r : Req} {p : Nat} {d : Dev} (h : progFits r p d = true) : needProg r p d = .ok () := by
  obtain ⟨hengine, -, hroom, hrandom, hmemory⟩ := progFits_iff.1 h
  rw [needProg, needEngine, need_ok (anyEngine_of_freeEngine hengine), ok_bind, need_ok hrandom, ok_bind, need_ok (decide_eq_true hroom),
    ok_bind, need_ok (by rw [hmemory, Bool.or_true])]

/-- Every command that programs serve, SESSION_OPEN apart, is a tenant's. -/
theorem pkIssuer_tenant {r : Req} (hop : r.opcode.toNat ≠ 0x0110) (htenant : (r.tenant != 0xFF) = true) : pkIssuer r = .ok () := by
  have hopcode : ¬ (r.opcode == 0x0110) = true := fun heq => hop (congrArg BitVec.toNat (eq_of_beq heq))
  rw [pkIssuer, if_neg hopcode, needTenant_ok htenant]

/-- A tenant's command whose body comes to the launch of one program that can start, starts it. -/
theorem pkCmd_starts {op p : Nat} {r : Req} {s : State} {slot : Option SlotRef} {work : PkWork} {e : Dev} (hserved : Served op r s.dev)
    (hop : op ≠ 0x0110) (htenant : (r.tenant != 0xFF) = true) (hgoes : pkGoes r (taken r s.dev) = true)
    (hbody : pkBody r (unready r (taken r s.dev)) = launch r [p] slot work e) (hfits : progFits r p e = true) :
    pkCmd op r s = pkStarts r [p] slot work e s := by
  rw [pkCmd_eq hserved hgoes, dispatchedPk, pkIssuer_tenant (by rw [opcode_of_served hserved]; exact hop) htenant, ok_bind, hbody,
    launch_starts (ps := [p]) slot work hfits]
  rfl

/-- A command of class 0x06 that can be dispatched has its one program's resources there. -/
theorem progOf_fits {r : Req} {d : Dev} (hprograms : programsOf d r = if progOf r == 0 then [] else [progOf r])
    (hgoes : pkGoes r d = true) : progFits r (progOf r) (unready r d) = true := by
  obtain ⟨⟨hsome, -, -⟩, hfits⟩ := pkGoes_iff.1 hgoes
  rw [hprograms] at hsome hfits
  split at hsome
  next => exact absurd rfl hsome
  next hprog =>
    rw [if_neg hprog] at hfits
    exact hfits

theorem pkVerify_holds : effPkVerify.Holds := by
  intro r s (hserved : Served 0x0602 r s.dev) h
  simp only [effPkVerify, Bool.and_eq_true, and_assoc] at h
  obtain ⟨htenant, hbits0, hbits1, hinput, hlens, hsalt, hctx, hpub, hsig, hctxPad, htail, hgoes⟩ := h
  have hfits := progOf_fits (by simp only [programsOf, opcode_of_served hserved]) hgoes
  have hbody : pkBody r (unready r (taken r s.dev)) = launch r [progOf r] none (verifyWork r) (unready r (taken r s.dev)) := by
    simp only [pkBody, opcode_of_served hserved, verifyBody]
    rw [param_ok (by rw [hbits0, hbits1]; rfl), ok_bind, param_ok (by rw [hinput, hlens, hsalt, hctx]; rfl), ok_bind,
      param_ok (by rw [hpub, hsig, hctxPad, htail]; rfl), ok_bind, needProg_ok hfits, ok_bind]
    rfl
  exact pkCmd_starts hserved (by decide) htenant hgoes hbody hfits

theorem pkKey_eq_some {r : Req} {flacon : List Word} {kt usage : Nat} {d : Dev} {x : List Byte × Option SlotRef × Dev}
    (h : pkKey r flacon kt usage d = some x) : pinKey r flacon kt usage d = .ok x := by
  unfold pkKey at h
  split at h
  next hpin => rw [hpin]; cases h; rfl
  next => cases h

theorem pkSign_holds : effPkSign.Holds := by
  intro r s (hserved : Served 0x0601 r s.dev) h
  simp only [effPkSign, Bool.and_eq_true, and_assoc] at h
  obtain ⟨htenant, hmin, hmax, hinput, hsalt, hsource, hrsa, htail, hgoes, hany⟩ := h
  obtain ⟨⟨k, slot, e⟩, hkey, hfits⟩ := (Option.any_eq_true _ _).1 hany
  have hbody : pkBody r (unready r (taken r s.dev)) = launch r [progOf r] slot
      (.sign (r.f 1 47 40) k (r.bytesFrom (2 + r.f 1 15 0) (r.f 1 39 24)) (r.f 1 23 16)) e := by
    simp only [pkBody, opcode_of_served hserved, signBody]
    rw [param_ok (by rw [hmin, hmax, hinput, hsalt]; rfl), ok_bind, param_ok (by rw [hsource, hrsa, htail]; rfl), ok_bind,
      needProg_ok (progOf_fits (by simp only [programsOf, opcode_of_served hserved]) hgoes), ok_bind, pkKey_eq_some hkey]
    rfl
  refine (pkCmd_starts hserved (by decide) htenant hgoes hbody hfits).trans ?_
  simp only [effPkSign, hkey]

theorem orElse_eq {α : Type} {x : Res α} {a v : α} (h : x = .ok v) : orElse x a = v := by rw [h]; rfl

theorem eq_ok_of_isOk {α : Type} {x : Res α} (h : x.isOk = true) : ∃ v, x = .ok v := by
  cases x with
  | error _ => cases h
  | ok v => exact ⟨v, rfl⟩

theorem pkKemPublic_holds : effPkKemPublic.Holds := by
  intro r s (hserved : Served 0x0604 r s.dev) h
  simp only [effPkKemPublic, Bool.and_eq_true, and_assoc] at h
  obtain ⟨htenant, hbits, hsized, htype, hgoes, hopens, hfits⟩ := h
  obtain ⟨⟨m, e⟩, hunwrap⟩ := eq_ok_of_isOk hopens
  rw [orElse_eq hunwrap] at hfits
  have hbody : pkBody r (unready r (taken r s.dev)) = launch r [progOf r] none (.kemPublic m) e := by
    simp only [pkBody, opcode_of_served hserved, kemBody]
    rw [param_ok (by rw [hbits, hsized, htype]; rfl), ok_bind,
      needProg_ok (progOf_fits (by simp only [programsOf, opcode_of_served hserved]) hgoes), ok_bind, hunwrap]
    rfl
  refine (pkCmd_starts hserved (by decide) htenant hgoes hbody hfits).trans ?_
  simp only [effPkKemPublic, orElse_eq hunwrap]

/-- PK_AGREE's work on what it binds. -/
def agreeWork (r : Req) (i : Nat) (k : List Byte) : PkWork :=
  .agree (r.f 1 47 40) (r.f 1 39 32) k (r.bytesFrom (if r.f 1 47 40 == 5 then 12 else 12 + r.f 1 15 0) (r.f 1 31 16)) i (r.w 3)
    (slice r.words 4 8)

/-- Once its parameters are checked, PK_AGREE launches its program on what it binds. -/
theorem agreeBody_launches {r : Req} {d e : Dev} {i : Nat} {k : List Byte} {slot : Option SlotRef}
    (hform : (decide (1 ≤ r.f 1 47 40) && decide (r.f 1 47 40 ≤ 5) && r.f 1 31 16 == peerLen (r.f 1 47 40)
      && (r.f 1 39 32 == 1 || r.f 1 39 32 == 2) && tailOk r (12 + r.f 1 15 0) (r.f 1 31 16)) = true)
    (hsource : (if r.f 1 47 40 == 5 then r.w 0 == 0 && r.f 1 15 0 == 0
      else (r.w 0 == 0) == (r.f 1 15 0 != 0) && (r.w 0 == 0 || r.f 1 47 40 != 4)) = true)
    (hmode : (if r.f 1 39 32 == 1 then r.enc && (slice r.words 2 10).all (· == 0)
      else onlyBits (r.w 2) [(39, 28)] && !isPersistent (r.f 2 39 28) && descOk (r.w 3) && isAes (descType (r.w 3))) = true)
    (hfits : progFits r (progOf r) d = true) (hneeds : agreeNeeds r d = .ok (i, k, slot, e)) :
    agreeBody r d = launch r [progOf r] slot (agreeWork r i k) e := by
  have hbound : agreeBody r d = (agreeNeeds r d >>= fun x => launch r [progOf r] x.2.2.1 (agreeWork r x.1 x.2.1) x.2.2.2) := by
    rw [agreeBody]
    dsimp only
    rw [param_ok hform, ok_bind, param_ok hsource, ok_bind, param_ok hmode, ok_bind, needProg_ok hfits, ok_bind, agreeNeeds]
    -- Either output mode, with a key of its own or an encapsulation that needs none
    by_cases htarget : (r.f 1 39 32 == 2) = true <;> by_cases hkem : (r.f 1 47 40 == 5) = true <;>
      simp only [htarget, hkem, agreeWork, if_true, if_false, ok_bind, bind_assoc, Bool.false_eq_true]
  rw [hbound, hneeds, ok_bind]

theorem pkAgree_holds : effPkAgree.Holds := by
  intro r s (hserved : Served 0x0603 r s.dev) h
  simp only [effPkAgree, Bool.and_eq_true, and_assoc] at h
  obtain ⟨htenant, hmin, hmax, hpeer, houtput, htail, hsource, hmode, hgoes, hbinds, hfits⟩ := h
  obtain ⟨⟨i, k, slot, e⟩, hneeds⟩ := eq_ok_of_isOk hbinds
  rw [orElse_eq hneeds] at hfits
  have hbody : pkBody r (unready r (taken r s.dev)) = launch r [progOf r] slot (agreeWork r i k) e := by
    simp only [pkBody, opcode_of_served hserved]
    exact agreeBody_launches (by rw [hmin, hmax, hpeer, houtput, htail]; rfl) hsource hmode
      (progOf_fits (by simp only [programsOf, opcode_of_served hserved]) hgoes) hneeds
  refine (pkCmd_starts hserved (by decide) htenant hgoes hbody hfits).trans ?_
  simp only [effPkAgree, orElse_eq hneeds, agreeWork]

/-- Settles O8: each command's body, past its checks, launches its one program, which can start. -/
theorem publicKeyCommandsStart : Obligations.PublicKeyCommandsStart :=
  ⟨pkSign_holds, pkVerify_holds, pkAgree_holds, pkKemPublic_holds⟩

end Sys2Proof.Machine
end

section
/-! PROOFS. RSA_KEYGEN, RSA_KEYGEN_RESULT and PK_INFO (R262, R266, R393, R410, R424). -/
namespace Sys2Proof.Machine

theorem slotsOf_tenant {r : Req} (p : Nat) (part : Nat × Nat) (htenant : (r.tenant != 0xFF) = true) :
    slotsOf r p part = progSlots p part.2 := if_neg (bne_iff_ne.1 htenant)

/-- RSA_KEYGEN is accepted as a queued operation; then engines that are free take programs. -/
theorem rsaKeygen_holds : effRsaKeygen.Holds := by
  intro r s (hserved : Served 0x0610 r s.dev) h
  change rsaTakes r (taken r s.dev) = true at h
  simp only [rsaTakes, rsaTemplate, Bool.and_eq_true, and_assoc] at h
  obtain ⟨htenant, hsized, hword, hown, hheader, htype, husage, hengine, hrandom, hroom, hfree, hmemory⟩ := h
  have hprog : needProg r 0x14 (taken r s.dev) = .ok () := by
    rw [needProg, slotsOf_tenant _ _ htenant, needEngine, need_ok hengine, ok_bind, need_ok (by rw [hrandom, Bool.or_true]), ok_bind,
      need_ok hroom, ok_bind, need_ok (by rw [hmemory, Bool.or_true])]
  change execRsaKeygen r s = _
  rw [execRsaKeygen, lift, if_pos ⟨hserved.1, hserved.2.1⟩, serve_eq _ _ hserved, needTenant_ok htenant, ok_bind]
  dsimp only
  rw [param_ok (by rw [hsized, hword, hown, hheader]; rfl), ok_bind, param_ok (by rw [htype, husage]; rfl), ok_bind, hprog, ok_bind,
    if_pos hfree]
  rfl

/-- The result that a command asks for is that of a finished key generation of its tenant. -/
theorem long_of_rsaResult {r : Req} {d : Dev} {x : List Word × List Byte} (h : rsaResult r d = some x) :
    ∃ l y, longAt d (BitVec.ofNat 24 (r.f 0 23 0)) = some l ∧ (l.tenant == r.tenant) = true ∧ (l.kind == 5) = true
      ∧ l.state = .done ∧ l.data = .rsa y ∧ y.result = some x := by
  obtain ⟨l, hat, hl⟩ := Option.bind_eq_some_iff.1 h
  obtain ⟨hdone, hdata⟩ := Option.ite_none_right_eq_some.1 hl
  simp only [Bool.and_eq_true, and_assoc] at hdone
  obtain ⟨htenant, hkind, hstate⟩ := hdone
  split at hdata
  next y hy => exact ⟨l, y, hat, htenant, hkind, eq_of_beq hstate, hy, hdata⟩
  next => cases hdata

theorem rsaKeygenResult_holds : effRsaKeygenResult.Holds := by
  refine HostEffect.holds_of_hostCmd (fun r s => (rfl : exec _ s = execRsaKeygenResult r s)) fun r s d _ h => ?_
  simp only [effRsaKeygenResult, Bool.and_eq_true, and_assoc] at h
  obtain ⟨htenant, hsized, hbits, hengine, hsome⟩ := h
  obtain ⟨x, hresult⟩ := Option.isSome_iff_exists.1 hsome
  obtain ⟨l, y, hat, hown, hkind, hstate, hdata, hready⟩ := long_of_rsaResult hresult
  rw [needTenant_ok htenant, ok_bind, param_ok (by rw [hsized, hbits]; rfl), ok_bind, need_ok hengine, ok_bind, hat]
  dsimp only
  rw [need_ok hown, ok_bind, param_ok (by rw [hkind, hstate]; rfl), ok_bind, hdata]
  dsimp only
  rw [hready]
  simp only [effRsaKeygenResult, hresult]
  rfl

theorem pkInfo_holds : effPkInfo.Holds := by
  refine HostEffect.holds_of_hostCmd (fun r s => (rfl : exec _ s = execPkInfo r s)) fun r s d _ h => ?_
  simp only [effPkInfo, Bool.and_eq_true, and_assoc] at h
  obtain ⟨htenant, hlen, hengine⟩ := h
  rw [needTenant_ok htenant, ok_bind, param_ok hlen, ok_bind, need_ok hengine]
  rfl

/-- Settles O9, a clause a row. -/
theorem rsaAndInfoComplete : Obligations.RsaAndInfoComplete := ⟨rsaKeygen_holds, rsaKeygenResult_holds, pkInfo_holds⟩

end Sys2Proof.Machine
end

section
/-! PROOFS. The commands over key slots, the flacon epoch and the rewrap commands (R262, R268, R298, R302, R308-R310, R319-R326, R338). -/
namespace Sys2Proof.Machine

-- KEY_PERSIST

theorem genPrograms_none {kt : Nat} (h : (genProg kt == 0) = true) : genPrograms kt = [] := if_pos h

/-- Material that no program generates is the random bytes themselves (R316). -/
theorem generate_random {kt : Nat} (h : (genProg kt == 0) = true) (d : Dev) : generate kt d = randomMaterial kt d := by
  have hscalar (b : List Byte) : scalarFrom kt b = b := by
    unfold scalarFrom
    split
    next => cases h
    next => cases h
    next => rfl
  rw [generate, randomMaterial]
  dsimp only
  rw [hscalar]

/-- KEY_PERSIST of generated material passes its checks, and comes to its generation. -/
theorem persistBody_asked {r : Req} {d : Dev} (h : persistAsked r d = true) : (r.tenant != 0xFF) = true ∧ r.f 0 47 40 = 1
    ∧ persistRoom r d = .ok () ∧ persistBody r d = (needGenerate r (descType (r.w 1)) d >>= fun _ =>
      if genProg (descType (r.w 1)) == 0 then persistFinish r d else launch r (genPrograms (descType (r.w 1))) none .generate d) := by
  simp only [persistAsked, Bool.and_eq_true, and_assoc] at h
  obtain ⟨htenant, hbits, hindex, hsource, hsized, hdesc, hnonce, hfixed, howner, hspace⟩ := h
  obtain ⟨_, hroom⟩ := eq_ok_of_isOk hspace
  have hsrc : r.f 0 47 40 = 1 := eq_of_beq hsource
  refine ⟨htenant, hsrc, hroom, ?_⟩
  have hflacon : (r.f 0 47 40 == 2) = false := by rw [hsrc]; rfl
  have hderived : (r.f 0 47 40 == 3) = false := by rw [hsrc]; rfl
  rw [persistBody]
  simp only [hflacon, hderived, Bool.false_eq_true, if_false]
  rw [param_ok (by rw [hbits, hindex, hsource]; rfl), ok_bind, param_ok (by rw [hsource, hsized]; rfl), ok_bind,
    param_ok (by rw [hdesc, hsource, Bool.true_and, Bool.true_and, hnonce, hfixed]; rfl), ok_bind,
    param_ok (by rw [howner]; rfl), ok_bind, hroom, ok_bind]

theorem keyPersist_holds : effKeyPersist.Holds := by
  intro r s (hserved : Served 0x0310 r s.dev) h
  simp only [effKeyPersist, Bool.and_eq_true, and_assoc] at h
  obtain ⟨hasked, hnone, hrandom⟩ := h
  obtain ⟨htenant, hsrc, hroom, hbody⟩ := persistBody_asked hasked
  have hsource : (unready r (taken r s.dev)).sym.randomOk = true := hrandom
  have hprograms : programsOf (taken r s.dev) r = [] := by
    simp only [programsOf, opcode_of_served hserved, hsrc, genPrograms_none hnone]
    rfl
  change pkCmd 0x0310 r s = _
  rw [pkCmd_noProgram hserved hprograms, dispatchedPk, pkIssuer_tenant (by rw [opcode_of_served hserved]; decide) htenant, ok_bind]
  simp only [pkBody, opcode_of_served hserved]
  rw [hbody, needGenerate, if_pos hnone, need_ok hsource, ok_bind, if_pos hnone, persistFinish, hroom, ok_bind, generate_random hnone]
  rfl

theorem keyPersistEc_holds : effKeyPersistEc.Holds := by
  intro r s (hserved : Served 0x0310 r s.dev) h
  simp only [effKeyPersistEc, Bool.and_eq_true, and_assoc] at h
  obtain ⟨hasked, hprogram, hgoes⟩ := h
  obtain ⟨htenant, hsrc, hroom, hbody⟩ := persistBody_asked hasked
  have hsome : ¬ (genProg (descType (r.w 1)) == 0) = true := fun heq => bne_iff_ne.1 hprogram (eq_of_beq heq)
  have hchain : genPrograms (descType (r.w 1)) = [genProg (descType (r.w 1))] := if_neg hsome
  have hprograms : programsOf (taken r s.dev) r = [genProg (descType (r.w 1))] := by
    simp only [programsOf, opcode_of_served hserved, hsrc, hchain]
    rfl
  have hfits : progFits r (genProg (descType (r.w 1))) (unready r (taken r s.dev)) = true := by
    have hhead := (pkGoes_iff.1 hgoes).2
    rw [hprograms] at hhead
    exact hhead
  refine pkCmd_starts hserved (by decide) htenant hgoes ?_ hfits
  simp only [pkBody, opcode_of_served hserved]
  rw [hbody, needGenerate, if_neg hsome, needProg_ok hfits, ok_bind, if_neg hsome, hchain]

/-- A heart key can be had while nothing bars it and its derivation path stands (R165, R291, R336, R505). -/
theorem needHeart_isOk (t : Byte) (gen : Nat) (d : Dev) : (needHeart t gen d).isOk
    = (!heartBarred d && (((heartAt d t (tenantEpoch d gen t)).isSome || baseReachable d) && d.keys.derivationOk)) := by
  rw [needHeart]
  cases heartBarred d with
  | true => rfl
  | false =>
    generalize (((heartAt d t (tenantEpoch d gen t)).isSome || baseReachable d) && d.keys.derivationOk) = path
    cases path with
    | true => rfl
    | false => rfl

/-- Then it is in use from there (R292). -/
theorem needHeart_ok {t : Byte} {gen : Nat} {d : Dev} (h : (needHeart t gen d).isOk = true) :
    needHeart t gen d = .ok (touchHeart t (tenantEpoch d gen t) d) := by
  rw [needHeart_isOk, Bool.and_eq_true] at h
  obtain ⟨hbar, hpath⟩ := h
  rw [needHeart, need_ok hbar, ok_bind, need_ok hpath, ok_bind]

/-- A clear bit may be listed as a further field. -/
theorem onlyBits_append_clearBit {w : Word} {fs : List (Nat × Nat)} {b : Nat} (h : onlyBits w fs = true) (hb : bitOf w b = false) :
    onlyBits w (fs ++ [(b, b)]) = true := by
  have hclear : fld w b b = 0 := by
    have hodd : w.toNat / 2 ^ b % 2 ≠ 1 := by simpa [bitOf] using hb
    simp only [fld, Nat.add_sub_cancel_left, Nat.pow_one]
    omega
  simpa [onlyBits, mkWord, hclear] using h

theorem mkWord_pair_toNat (hi lo v hi' lo' v' : Nat) : (mkWord [(hi, lo, v), (hi', lo', v')]).toNat
    = (v % 2 ^ (hi + 1 - lo) * 2 ^ lo + v' % 2 ^ (hi' + 1 - lo') * 2 ^ lo') % 2 ^ 48 := by
  simp [mkWord]

/-- A slot's index and a source byte alone leave the option bit of the word clear. -/
theorem bitZero_of_indexWord {w : Word} (h : onlyBits w [(47, 40), (39, 28)] = true) : bitOf w 0 = false := by
  have hw : w = mkWord [(47, 40, fld w 47 40), (39, 28, fld w 39 28)] := eq_of_beq h
  have hnat := congrArg BitVec.toNat hw
  rw [mkWord_pair_toNat] at hnat
  generalize fld w 47 40 = a at hnat
  generalize fld w 39 28 = b at hnat
  have heven : w.toNat % 2 = 0 := by omega
  simp [bitOf, heven]
theorem keyPersistDerived_holds : effKeyPersistDerived.Holds := by
  intro r s (hserved : Served 0x0310 r s.dev) h
  simp only [effKeyPersistDerived, Bool.and_eq_true, and_assoc] at h
  obtain ⟨htenant, hbits, hindex, hsource, hsized, hword, hdesc, howner, hspace, hheart⟩ := h
  obtain ⟨_, hroom⟩ := eq_ok_of_isOk hspace
  have hsrc : r.f 0 47 40 = 3 := eq_of_beq hsource
  have hprograms : programsOf (taken r s.dev) r = [] := by
    simp only [programsOf, opcode_of_served hserved, hsrc]
    rfl
  have hready : (needHeart r.tenant r.gen (unready r (taken r s.dev))).isOk = true := by
    rw [needHeart_isOk] at hheart ⊢
    exact hheart
  have hflacon : (r.f 0 47 40 == 2) = false := by rw [hsrc]; rfl
  have hnonce : bitOf (r.w 0) 0 = false := bitZero_of_indexWord hbits
  have hallBits : onlyBits (r.w 0) [(47, 40), (39, 28), (0, 0)] = true := onlyBits_append_clearBit hbits hnonce
  have hkey : (!(r.tenant == 0 && r.f 0 39 28 == 0xFFF) || (descType (r.w 1) == 3 && descUsages (r.w 1) == 0x0C)) = true := by
    simpa only [Bool.not_and, Bool.not_or, bne, Bool.not_not] using howner
  change pkCmd 0x0310 r s = _
  rw [pkCmd_noProgram hserved hprograms, dispatchedPk, pkIssuer_tenant (by rw [opcode_of_served hserved]; decide) htenant, ok_bind]
  simp only [pkBody, opcode_of_served hserved]
  rw [persistBody]
  simp only [hflacon, hsource, hnonce, Bool.false_eq_true, if_false, if_true]
  rw [param_ok (by rw [hallBits, hindex, Bool.or_true]; rfl), ok_bind, param_ok (by rw [hsized]; exact Bool.or_true _), ok_bind,
    param_ok (by rw [hdesc, hword]; rfl), ok_bind,
    param_ok hkey, ok_bind, hroom, ok_bind, needHeart_ok hready, ok_bind]
  rfl

-- KEY_ERASE, KEY_INFO, KEY_LIST and KEY_PUBLIC

theorem keyErase_holds : effKeyErase.Holds := by
  refine HostEffect.holds_of_hostCmd (fun r s => (rfl : exec _ s = execKeyErase r s)) fun r s d _ h => ?_
  simp only [effKeyErase, Bool.and_eq_true, and_assoc] at h
  obtain ⟨htenant, hsized, hjournal, hhandle⟩ := h
  obtain ⟨x, hx⟩ := eq_ok_of_isOk hhandle
  rw [needTenant_ok htenant, ok_bind, param_ok hsized, ok_bind, need_ok hjournal, ok_bind, hx, ok_bind]
  simp only [effKeyErase, orElse_eq hx]
  cases isPersistent x.index with
  | true => rfl
  | false => rfl

theorem keyInfo_holds : effKeyInfo.Holds := by
  refine HostEffect.holds_of_hostCmd (fun r s => (rfl : exec _ s = execKeyInfo r s)) fun r s d _ h => ?_
  simp only [effKeyInfo, Bool.and_eq_true, and_assoc] at h
  obtain ⟨htenant, hsized, hhandle⟩ := h
  obtain ⟨x, hx⟩ := eq_ok_of_isOk hhandle
  rw [needTenant_ok htenant, ok_bind, param_ok hsized, ok_bind, hx, ok_bind]
  simp only [effKeyInfo, orElse_eq hx]
  rfl

theorem keyList_holds : effKeyList.Holds := by
  refine HostEffect.holds_of_hostCmd (fun r s => (rfl : exec _ s = execKeyList r s)) fun r s d _ h => ?_
  simp only [effKeyList, Bool.and_eq_true, and_assoc] at h
  obtain ⟨htenant, hsized, hbits⟩ := h
  rw [needTenant_ok htenant, ok_bind, param_ok (by rw [hsized, hbits]; rfl)]
  rfl

/-- A curve's key in a slot has one program, which generates its type and gives its public key (R401). -/
theorem genPrograms_curve {kt : Nat} (hslot : slotType kt = true) (hcurve : (!isAes kt) = true) : genPrograms kt = [genProg kt] := by
  refine if_neg fun hnone => ?_
  have hasym : isAes kt = false := by simpa using hcurve
  simp only [slotType, hasym, Bool.false_or, Bool.or_eq_true, beq_iff_eq] at hslot
  obtain ((rfl | rfl) | rfl) | rfl := hslot
  all_goals cases hnone

theorem keyPublic_holds : effKeyPublic.Holds := by
  intro r s (hserved : Served 0x0314 r s.dev) h
  simp only [effKeyPublic, Bool.and_eq_true, and_assoc] at h
  obtain ⟨htenant, hsized, hgoes, hreach, hslot, hcurve, hfits⟩ := h
  obtain ⟨⟨x, e⟩, hx⟩ := eq_ok_of_isOk hreach
  rw [orElse_eq hx] at hslot hcurve hfits
  have hbody : pkBody r (unready r (taken r s.dev)) = launch r [genProg x.ktype] (some x.ref) (.keyPublic x.ktype x.material) e := by
    simp only [pkBody, opcode_of_served hserved, publicBody]
    rw [param_ok hsized, ok_bind, hx, ok_bind]
    dsimp only
    rw [param_ok (by rw [hslot, hcurve]; rfl), ok_bind, needProg_ok hfits, ok_bind, genPrograms_curve hslot hcurve]
  refine (pkCmd_starts hserved (by decide) htenant hgoes hbody hfits).trans ?_
  simp only [effKeyPublic, orElse_eq hx]

-- FLACON_EPOCH_ADVANCE and FLACON_REWRAP

theorem flaconEpochAdvance_holds : effFlaconEpochAdvance.Holds := by
  refine HostEffect.holds_of_hostCmd (fun r s => (rfl : exec _ s = execFlaconEpochAdvance r s)) fun r s d _ h => ?_
  simp only [effFlaconEpochAdvance, Bool.and_eq_true, and_assoc] at h
  obtain ⟨htenant, hlen, hepoch, hfree⟩ := h
  have hnone : ¬ epochPending d r.tenant = true := by simpa using hfree
  rw [needTenant_ok htenant, ok_bind, param_ok hlen, ok_bind, need_ok hepoch, ok_bind, if_neg hnone]
  rfl

theorem flaconRewrap_holds : effFlaconRewrap.Holds := by
  refine HostEffect.holds_of_hostCmd (fun r s => (rfl : exec _ s = execFlaconRewrap r s)) fun r s d _ h => ?_
  simp only [effFlaconRewrap, Bool.and_eq_true, and_assoc] at h
  obtain ⟨htenant, hsized, hbits⟩ := h
  rw [needTenant_ok htenant, ok_bind, param_ok (by rw [hsized, hbits]; rfl), ok_bind]
  exact outcome_startLong _ _ _ _ _ _ _

/-- A chunk of flacons names a running rewrap of the tenant's. -/
theorem long_of_rewrapOf {r : Req} {d : Dev} {l : LongOp} {mask : Byte} {ceiling : Word} (h : rewrapOf r d = some (l, mask, ceiling)) :
    needLong r (r.f 0 23 0) 2 d = .ok l ∧ longRunning l = true ∧ l.data = .rewrap mask ceiling := by
  unfold rewrapOf at h
  cases hlong : needLong r (r.f 0 23 0) 2 d with
  | error _ => rw [hlong] at h; cases h
  | ok l' =>
    rw [hlong] at h
    dsimp only at h
    split at h
    next m c hdata =>
      obtain ⟨hruns, heq⟩ := Option.ite_none_right_eq_some.1 h
      cases heq
      exact ⟨rfl, hruns, hdata⟩
    next => cases h

/-- A rewrap that a chunk has left in work ends with it when it is the last (R268). -/
theorem flaconRewrapChunk_holds : effFlaconRewrapChunk.Holds := by
  refine HostEffect.holds_of_hostCmd (fun r s => (rfl : exec _ s = execFlaconRewrapChunk r s)) fun r s d _ h => ?_
  simp only [effFlaconRewrapChunk, Bool.and_eq_true, and_assoc] at h
  obtain ⟨htenant, hcount, hsized, hbits, hsome, hrandom⟩ := h
  obtain ⟨⟨l, mask, ceiling⟩, hrewrap⟩ := Option.isSome_iff_exists.1 hsome
  obtain ⟨hlong, hruns, hdata⟩ := long_of_rewrapOf hrewrap
  rw [needTenant_ok htenant, ok_bind]
  dsimp only
  rw [param_ok (by rw [hsized, hbits, hcount]; rfl), ok_bind, hlong, ok_bind, param_ok hruns, ok_bind, need_ok hrandom, ok_bind, hdata]
  simp only [effFlaconRewrapChunk, hrewrap]
  generalize rewrapAll r l.handle mask ceiling (r.f 0 47 40) (r.words.drop 1) d = p
  cases hat : longAt p.2 l.handle with
  | none => rfl
  | some x =>
    dsimp only
    rw [Option.filter_some]
    cases bitOf (r.w 0) 24 && longRunning x with
    | true => rfl
    | false => rfl

/-- Settles O5, a clause a row; KEY_PERSIST has one for each kind of material. -/
theorem slotCommandsComplete : Obligations.SlotCommandsComplete :=
  ⟨keyPersist_holds, keyPersistEc_holds, keyPersistDerived_holds, keyErase_holds, keyInfo_holds, keyList_holds, keyPublic_holds,
    flaconEpochAdvance_holds, flaconRewrap_holds, flaconRewrapChunk_holds⟩

end Sys2Proof.Machine
end

section
/-! PROOFS. KEY_DERIVE, FLACON_LOAD, FLACON_CREATE and FLACON_IMPORT (R293-R298, R302, R314-R318, R336). -/
namespace Sys2Proof.Machine

-- KEY_DERIVE and FLACON_LOAD

/-- A body's steps end well when the first ends well and the rest ends well on its value. -/
theorem bind_eq_ok {α β : Type} {x : Res α} {f : α → Res β} {b : β} (h : (x >>= f) = .ok b) : ∃ a, x = .ok a ∧ f a = .ok b := by
  cases x with
  | error _ => cases h
  | ok a => exact ⟨a, rfl, h⟩

/-- KEY_DERIVE takes an index, then a cache entry, then its heart key, each over the device the step before left (R307, R336). -/
theorem deriveNeeds_eq_ok {r : Req} {d e : Dev} {i : Nat} (h : deriveNeeds r d = .ok (i, e)) : volatileTarget r (r.f 0 39 28) d = .ok i
    ∧ ∃ e', needEntry r (cacheCost (descType (r.w 1))) (dropSlot r.tenant i d) = .ok e' ∧ needHeart r.tenant r.gen e' = .ok e := by
  obtain ⟨_, hindex, h⟩ := bind_eq_ok h
  obtain ⟨e', hentry, h⟩ := bind_eq_ok h
  obtain ⟨_, hheart, h⟩ := bind_eq_ok h
  cases h
  exact ⟨hindex, e', hentry, hheart⟩

theorem keyDerive_holds : effKeyDerive.Holds := by
  refine HostEffect.holds_of_hostCmd (fun r s => (rfl : exec _ s = execKeyDerive r s)) fun r s d _ h => ?_
  simp only [effKeyDerive, Bool.and_eq_true, and_assoc] at h
  obtain ⟨htenant, hsized, hbits, hvolatile, hdesc, hsome⟩ := h
  obtain ⟨⟨i, e⟩, hneeds⟩ := eq_ok_of_isOk hsome
  obtain ⟨hindex, e', hentry, hheart⟩ := deriveNeeds_eq_ok hneeds
  rw [needTenant_ok htenant, ok_bind]
  dsimp only
  rw [param_ok (by rw [hsized, hbits, hvolatile, hdesc]; rfl), ok_bind, hindex, ok_bind, hentry, ok_bind, hheart, ok_bind]
  simp only [effKeyDerive, orElse_eq hneeds]
  rfl

/-- FLACON_LOAD finds room under the index it takes before it unwraps the flacon, and again after (R314). -/
theorem loadNeeds_eq_ok {r : Req} {d e : Dev} {x : Slot} (h : loadNeeds r d = .ok (x, e)) :
    ∃ i e₀ m e', volatileTarget r (r.f 0 39 28) d = .ok i
      ∧ needEntry r (cacheCost (fld (wd (r.words.drop 1) 0) 31 24)) (dropStaged r.id false (dropSlot r.tenant i d)) = .ok e₀
      ∧ unwrapFlacon r (r.words.drop 1) d = .ok (m, e') ∧ slotFromFlacon r.tenant i (r.words.drop 1) m = x
      ∧ needEntry r (cacheCost x.ktype) (dropStaged r.id false (dropSlot r.tenant i e')) = .ok e := by
  obtain ⟨i, hindex, h⟩ := bind_eq_ok h
  obtain ⟨e₀, hroom, h⟩ := bind_eq_ok h
  obtain ⟨⟨m, e'⟩, hunwrap, h⟩ := bind_eq_ok h
  obtain ⟨_, hentry, h⟩ := bind_eq_ok h
  cases h
  exact ⟨i, e₀, m, e', hindex, hroom, hunwrap, rfl, hentry⟩

theorem flaconLoad_holds : effFlaconLoad.Holds := by
  refine HostEffect.holds_of_hostCmd (fun r s => (rfl : exec _ s = execFlaconLoad r s)) fun r s d _ h => ?_
  simp only [effFlaconLoad, Bool.and_eq_true, and_assoc] at h
  obtain ⟨htenant, hsized, hbits, hvolatile, htype, hsome⟩ := h
  obtain ⟨⟨x, e⟩, hneeds⟩ := eq_ok_of_isOk hsome
  obtain ⟨i, e₀, m, e', hindex, hroom, hunwrap, rfl, hentry⟩ := loadNeeds_eq_ok hneeds
  rw [needTenant_ok htenant, ok_bind]
  dsimp only
  rw [param_ok (by rw [hsized, hbits, hvolatile, htype]; rfl), ok_bind, hindex, ok_bind, hroom, ok_bind, hunwrap, ok_bind]
  dsimp only
  rw [hentry, ok_bind]
  simp only [effFlaconLoad, orElse_eq hneeds]
  rfl

-- FLACON_CREATE

/-- FLACON_CREATE passes its checks, and comes to the generation of its material. -/
theorem createBody_asked {r : Req} {d : Dev} (h : createAsked r d = true) : (r.tenant != 0xFF) = true
    ∧ (∃ x, createTarget r d = .ok x) ∧ createBody r d = (needGenerate r (r.f 1 31 24) d >>= fun _ =>
      if genProg (r.f 1 31 24) == 0 then createFinish r d
      else createTarget r d >>= fun _ => launch r (genPrograms (r.f 1 31 24)) none .generate d) := by
  simp only [createAsked, Bool.and_eq_true, and_assoc] at h
  obtain ⟨htenant, hsized, hbits, hvolatile, hload, howner, hheader, hrsa, hkem, htarget⟩ := h
  refine ⟨htenant, eq_ok_of_isOk htarget, ?_⟩
  rw [createBody, param_ok (by rw [hsized, hbits, hvolatile, hload]; rfl), ok_bind,
    param_ok (by rw [howner, hheader, hrsa, hkem]; rfl), ok_bind]

theorem flaconCreate_holds : effFlaconCreate.Holds := by
  intro r s (hserved : Served 0x0303 r s.dev) h
  simp only [effFlaconCreate, Bool.and_eq_true, and_assoc] at h
  obtain ⟨hasked, hnone, hrandom⟩ := h
  obtain ⟨htenant, ⟨⟨i, e⟩, htarget⟩, hbody⟩ := createBody_asked hasked
  have hsource : (unready r (taken r s.dev)).sym.randomOk = true := hrandom
  have hprograms : programsOf (taken r s.dev) r = [] := by
    simp only [programsOf, opcode_of_served hserved, genPrograms_none hnone]
  change pkCmd 0x0303 r s = _
  rw [pkCmd_noProgram hserved hprograms, dispatchedPk, pkIssuer_tenant (by rw [opcode_of_served hserved]; decide) htenant, ok_bind]
  simp only [pkBody, opcode_of_served hserved]
  rw [hbody, needGenerate, if_pos hnone, need_ok hsource, ok_bind, if_pos hnone, createFinish, htarget, ok_bind]
  simp only [effFlaconCreate, orElse_eq htarget, generate_random hnone]
  cases bitOf (r.w 0) 0 with
  | true => rfl
  | false => rfl

/-- A command of one program that can be dispatched has that program's resources there. -/
theorem progFits_of_programsOf {r : Req} {d : Dev} {p : Nat} (hprograms : programsOf d r = [p]) (hgoes : pkGoes r d = true) :
    progFits r p (unready r d) = true := by
  have hhead := (pkGoes_iff.1 hgoes).2
  rw [hprograms] at hhead
  exact hhead

theorem flaconCreateEc_holds : effFlaconCreateEc.Holds := by
  intro r s (hserved : Served 0x0303 r s.dev) h
  simp only [effFlaconCreateEc, Bool.and_eq_true, and_assoc] at h
  obtain ⟨hasked, hprogram, hgoes⟩ := h
  obtain ⟨htenant, ⟨_, htarget⟩, hbody⟩ := createBody_asked hasked
  have hsome : ¬ (genProg (r.f 1 31 24) == 0) = true := fun heq => bne_iff_ne.1 hprogram (eq_of_beq heq)
  have hchain : genPrograms (r.f 1 31 24) = [genProg (r.f 1 31 24)] := if_neg hsome
  have hprograms : programsOf (taken r s.dev) r = [genProg (r.f 1 31 24)] := by
    simp only [programsOf, opcode_of_served hserved, hchain]
  have hfits := progFits_of_programsOf hprograms hgoes
  refine pkCmd_starts hserved (by decide) htenant hgoes ?_ hfits
  simp only [pkBody, opcode_of_served hserved]
  rw [hbody, needGenerate, if_neg hsome, needProg_ok hfits, ok_bind, if_neg hsome, htarget, ok_bind, hchain]

-- FLACON_IMPORT

theorem flaconImport_holds : effFlaconImport.Holds := by
  refine HostEffect.holds_of_hostCmd (fun r s => (rfl : exec _ s = execFlaconImport r s)) fun r s d _ h => ?_
  simp only [effFlaconImport, Bool.and_eq_true, and_assoc] at h
  obtain ⟨htenant, hsized, hword, henc, hzero, howner, hheader, hfits, hpadded, hpad, hmaterial, hrandom, hheart⟩ := h
  have hmode : r.f 0 47 40 = 1 := by rw [Req.f, eq_of_beq hword]; rfl
  have hbits : onlyBits (r.w 0) [(47, 40)] = true := by rw [eq_of_beq hword]; rfl
  rw [needTenant_ok htenant, ok_bind]
  simp only [hmode, beq_self_eq_true, if_true]
  rw [param_ok (by rw [hsized, hbits, henc, hzero]; rfl), ok_bind, param_ok (by rw [howner, hheader]; rfl), ok_bind,
    param_ok (by rw [hfits, hpadded, hpad]; rfl), ok_bind, ok_bind, param_ok hmaterial, ok_bind, need_ok hrandom, ok_bind,
    needHeart_ok hheart, ok_bind]
  rfl

/-- Settles O4, a clause a row; FLACON_CREATE has one for random material and one for a curve's. -/
theorem keyMakingCompletes : Obligations.KeyMakingCompletes :=
  ⟨keyDerive_holds, flaconLoad_holds, flaconCreate_holds, flaconCreateEc_holds, flaconImport_holds⟩

end Sys2Proof.Machine
end

section
/-! PROOFS. A lane's choices against side channels leave its block that of AES: a round's byte order, then where basting rounds fall
(R358, R359). -/
namespace Sys2Proof.Machine

-- A round's byte order

/-- An odd stride has an inverse modulo 16: its cube. -/
theorem exists_mul_mod_sixteen_eq_one {d : Nat} (hodd : d % 2 = 1) : ∃ m, d * m % 16 = 1 := by
  have hcube : ∀ e < 16, e % 2 = 1 → e * (e * e * e) % 16 = 1 := by decide
  refine ⟨d % 16 * (d % 16) * (d % 16), ?_⟩
  rw [Nat.mul_mod, ← Nat.mod_mod d 16, ← Nat.mul_mod, Nat.mod_mod]
  exact hcube _ (Nat.mod_lt _ (by decide)) (by omega)

/-- An odd stride reaches each of the 16 state bytes from any start (R359). -/
theorem mem_byteOrder_iff {o : Nat × Nat} (hodd : o.2 % 2 = 1) {p : Nat} : p ∈ byteOrder o ↔ p < 16 := by
  simp only [byteOrder, List.mem_map, List.mem_range]
  constructor
  · rintro ⟨i, -, rfl⟩
    exact Nat.mod_lt _ (by decide)
  · intro hp
    obtain ⟨m, hm⟩ := exists_mul_mod_sixteen_eq_one hodd
    refine ⟨m * (p + 15 * o.1) % 16, Nat.mod_lt _ (by decide), ?_⟩
    calc (o.1 + m * (p + 15 * o.1) % 16 * o.2) % 16
        = (o.1 + o.2 * m * (p + 15 * o.1)) % 16 := by
          rw [Nat.add_mod, Nat.mod_mul_mod, ← Nat.add_mod, Nat.mul_comm, Nat.mul_assoc]
      _ = (o.1 + (p + 15 * o.1)) % 16 := by
          rw [Nat.add_mod, Nat.mul_mod, hm, Nat.one_mul, Nat.mod_mod, ← Nat.add_mod]
      _ = p := by omega

/-- Bytes written one after the other read back in any order: a place that is written, and always with the same value, holds it. -/
theorem getElem?_foldl_setAt {α : Type} {g : Nat → Nat} {f : Nat → α} {i : Nat} {v : α} {l : List Nat} {t : List α}
    (hval : ∀ p ∈ l, g p = i → f p = v) (hwritten : t[i]? = some v ∨ i < t.length ∧ ∃ p ∈ l, g p = i) :
    (l.foldl (fun t p => setAt t (g p) (f p)) t)[i]? = some v := by
  induction l generalizing t with
  | nil => simpa using hwritten
  | cons p l ih =>
    refine ih (fun q hq => hval q (List.mem_cons_of_mem p hq)) ?_
    have hlen : i < t.length := hwritten.elim (fun h => (List.getElem?_eq_some_iff.1 h).1) And.left
    by_cases hp : g p = i
    · left
      simp only [setAt, hp, List.getElem?_set_self hlen, hval p List.mem_cons_self hp]
    · simpa [setAt, hp] using hwritten

/-- The row shifts of the two directions undo each other. -/
theorem rowTarget_rowTarget_not (dec : Bool) {p : Nat} (hp : p < 16) : rowTarget dec (rowTarget (!dec) p) = p := by
  cases dec <;> simp [rowTarget] <;> omega

theorem rowTarget_lt (dec : Bool) (p : Nat) : rowTarget dec p < 16 := by
  cases dec <;> exact Nat.mod_lt _ (by decide)

theorem length_foldl_setAt {α : Type} (g : Nat → Nat) (f : Nat → α) (l : List Nat) (t : List α) :
    (l.foldl (fun t p => setAt t (g p) (f p)) t).length = t.length := by
  induction l generalizing t with
  | nil => rfl
  | cons p l ih => rw [List.foldl_cons, ih]; exact List.length_set

@[simp] theorem length_byteStep (dec : Bool) (o : Nat × Nat) (s : List Byte) : (byteStep dec o s).length = 16 := by
  rw [byteStep, length_foldl_setAt, List.length_replicate]

/-- Substitution and row shift come out the same in every order of R359: each byte is the substituted one that the row shift takes there. -/
theorem byteStep_eq_map {o : Nat × Nat} (hodd : o.2 % 2 = 1) (dec : Bool) (s : List Byte) :
    byteStep dec o s = (List.range 16).map (fun q => sub8 (if dec then aesInv else aesSbox) (s.getD (rowTarget (!dec) q) 0)) := by
  refine List.ext_getElem (by simp) fun q hq _ => ?_
  rw [length_byteStep] at hq
  refine List.getElem_eq_iff _ |>.2 ?_
  simp only [List.getElem_map, List.getElem_range]
  refine getElem?_foldl_setAt (fun p hp htarget => ?_) (.inr ⟨by simpa using hq, _, ?_, rowTarget_rowTarget_not dec hq⟩)
  · have hsource := rowTarget_rowTarget_not (!dec) ((mem_byteOrder_iff hodd).1 hp)
    rw [Bool.not_not, htarget] at hsource
    rw [hsource]
  · exact (mem_byteOrder_iff hodd).2 (rowTarget_lt _ _)

-- A round

/-- A round of AES on a state, with its round key; the final one mixes no columns (FIPS 197). -/
def aesRound (dec last : Bool) (s k : List Byte) : List Byte :=
  if dec then
    let t := xorBytes ((invShiftRows s).map (sub8 aesInv)) k
    if last then t else mixWith [14, 11, 13, 9] t
  else
    let t := shiftRows (s.map (sub8 aesSbox))
    xorBytes (if last then t else mixWith [2, 3, 1, 1] t) k

theorem length_xorBytes {a b : List Byte} {n : Nat} (ha : a.length = n) (hb : b.length = n) : (xorBytes a b).length = n := by
  rw [xorBytes, List.length_zipWith, ha, hb, Nat.min_self]

theorem length_aesRound {dec last : Bool} {s k : List Byte} (hk : k.length = 16) : (aesRound dec last s k).length = 16 := by
  have hmix (m : List Nat) (t : List Byte) : (mixWith m t).length = 16 := by simp [mixWith]
  have hshift (t : List Byte) : (shiftRows t).length = 16 := by simp [shiftRows]
  have hinv (t : List Byte) : (invShiftRows t).length = 16 := by simp [invShiftRows]
  cases dec <;> cases last
  · exact length_xorBytes (hmix _ _) hk
  · exact length_xorBytes (hshift _) hk
  · exact hmix _ _
  · exact length_xorBytes (by rw [List.length_map, hinv]) hk

/-- On a 16-byte state the substitution may come after the row shift. -/
theorem shiftRows_map {s : List Byte} (hs : s.length = 16) (f : Byte → Byte) :
    shiftRows (s.map f) = (List.range 16).map (fun q => f (s.getD (rowTarget true q) 0)) := by
  refine List.map_congr_left fun q _ => ?_
  have hq : rowTarget true q < s.length := hs ▸ rowTarget_lt true q
  change (s.map f).getD (rowTarget true q) 0 = _
  simp [List.getD, hq]

/-- A lane's round in any order with an odd stride is the round of AES (R359). -/
theorem laneRound_eq_aesRound {o : Nat × Nat} (hodd : o.2 % 2 = 1) {s : List Byte} (hs : s.length = 16) (dec last : Bool) (k : List Byte) :
    laneRound dec last o k s = aesRound dec last s k := by
  cases dec with
  | false =>
    have hstep : byteStep false o s = shiftRows (s.map (sub8 aesSbox)) := by
      rw [byteStep_eq_map hodd, shiftRows_map hs]
      rfl
    simp [laneRound, aesRound, hstep]
  | true =>
    have hstep : byteStep true o s = (invShiftRows s).map (sub8 aesInv) := by
      rw [byteStep_eq_map hodd, invShiftRows, List.map_map]
      rfl
    simp [laneRound, aesRound, hstep]

-- Basting rounds

/-- A lane's state register goes through the real rounds alone, each a round of AES: a basting round writes only the copy (R358). -/
theorem laneRun_state {p : BlockPlan} (hodd : ∀ o ∈ p.orders, o.2 % 2 = 1) (dec : Bool) (rounds : List (Option (List Byte × Bool)))
    {s : List Byte} (hs : s.length = 16) (hkeys : ∀ r ∈ rounds.filterMap id, r.1.length = 16) :
    (laneRun dec p rounds s).1 = (rounds.filterMap id).foldl (fun s r => aesRound dec r.2 s r.1) s := by
  have horder (i : Nat) : (p.orders.getD i (0, 1)).2 % 2 = 1 := by
    rw [List.getD]
    cases h : p.orders[i]? with
    | none => rfl
    | some o => exact hodd o (List.mem_of_getElem? h)
  rw [laneRun]
  rw [← List.zipIdx_map_fst 0 rounds] at hkeys
  conv => rhs; rw [← List.zipIdx_map_fst 0 rounds]
  generalize rounds.zipIdx = z at hkeys ⊢
  generalize ([] : List Byte) = c
  induction z generalizing s c with
  | nil => rfl
  | cons r z ih =>
    obtain ⟨_ | ⟨k, last⟩, n⟩ := r
    case none => exact ih hs hkeys _
    case some =>
      obtain ⟨hk, hrest⟩ := List.forall_mem_cons.1 hkeys
      have hround := laneRound_eq_aesRound (horder n) hs dec last k
      simp only [List.foldl_cons, hround]
      exact ih (length_aesRound hk) hrest _

/-- The real rounds of a plan, wherever its basting rounds fall: one for each round key in their order, the last of them the final one
(R358). -/
theorem filterMap_roundPlan (ks : List (List Byte)) (basting : List Nat) :
    (roundPlan ks basting).filterMap id = (List.range ks.length).map (fun i => (ks.getD i [], i + 1 == ks.length)) := by
  have hbasting (n : Nat) : (List.replicate n (none : Option (List Byte × Bool))).filterMap id = [] := by simp
  rw [roundPlan, List.filterMap_flatMap, List.range_succ, List.flatMap_append, List.map_eq_flatMap]
  simp only [List.filterMap_append, hbasting, List.nil_append, List.flatMap_singleton, Nat.lt_irrefl, if_false, List.filterMap_nil,
    List.append_nil]
  rw [List.flatMap_def, List.flatMap_def]
  refine congrArg List.flatten (List.map_congr_left fun i hi => ?_)
  rw [if_pos (List.mem_range.1 hi)]
  rfl

/-- With the last round key apart, the real rounds before it are not final. -/
theorem filterMap_roundPlan_concat (ks : List (List Byte)) (k : List Byte) (basting : List Nat) :
    (roundPlan (ks ++ [k]) basting).filterMap id = ks.map (·, false) ++ [(k, true)] := by
  rw [filterMap_roundPlan]
  refine List.ext_getElem (by simp) fun i hi _ => ?_
  simp only [List.length_map, List.length_range, List.length_append, List.length_singleton] at hi
  obtain hlt | rfl := Nat.lt_succ_iff_lt_or_eq.1 hi
  · simp [hlt, Nat.ne_of_lt hlt, List.getElem_append_left, List.getElem?_append_left]
  · simp

/-- AES in either direction is its rounds, the round keys in the direction's order. -/
theorem aes_eq_rounds {dec : Bool} {ks init : List (List Byte)} {k0 k : List Byte} (blk : List Byte)
    (h : (if dec then ks.reverse else ks) = k0 :: (init ++ [k])) :
    (if dec then aesDecKeys ks blk else aesEncKeys ks blk) = aesRound dec true (init.foldl (aesRound dec false) (xorBytes blk k0)) k := by
  cases dec with
  | false =>
    obtain rfl : ks = k0 :: (init ++ [k]) := h
    simp only [aesEncKeys, List.dropLast_concat, List.getLastD_concat]
    rfl
  | true =>
    have hrev : ks.reverse = k0 :: (init ++ [k]) := h
    simp only [aesDecKeys, hrev, List.dropLast_concat, List.getLastD_concat, if_true]
    rfl

/-- Settles O58: the real rounds of the plan are those of AES, in their order. -/
theorem laneChoicesKeepTheBlock : Obligations.LaneChoicesKeepTheBlock := by
  intro dec ks p blk hlen hkeys hblk hodd
  have hmem : ∀ k ∈ (if dec then ks.reverse else ks), k.length = 16 := by cases dec <;> simpa using hkeys
  obtain ⟨k0, init, k, hks⟩ : ∃ k0 init k, (if dec then ks.reverse else ks) = k0 :: (init ++ [k]) := by
    have htwo : 2 ≤ (if dec then ks.reverse else ks).length := by cases dec <;> simpa using hlen
    match h : (if dec then ks.reverse else ks) with
    | [] | [_] => simp [h] at htwo
    | k0 :: k1 :: rest => exact ⟨k0, _, _, congrArg _ (List.dropLast_concat_getLast (List.cons_ne_nil k1 rest)).symm⟩
  rw [hks] at hmem
  have hstart : (xorBytes blk k0).length = 16 := length_xorBytes hblk (hmem k0 List.mem_cons_self)
  have hround : ∀ r ∈ (roundPlan (init ++ [k]) p.basting).filterMap id, r.1.length = 16 := by
    have hrest := List.forall_mem_append.1 (List.forall_mem_cons.1 hmem).2
    rw [filterMap_roundPlan_concat, List.forall_mem_append]
    exact ⟨by simpa using hrest.1, by simpa using hrest.2⟩
  rw [aes_eq_rounds blk hks, laneBlock, hks]
  simp only [laneRun_state hodd dec _ hstart hround, filterMap_roundPlan_concat, List.foldl_append, List.foldl_map, List.foldl_cons,
    List.foldl_nil]

end Sys2Proof.Machine
end

section
/-! PROOFS. Class 0x07: the journal's reads answer its state (R437, R462, R472, R473); appends, exports, chunks and receipts take their
effects on the streams and their marks (R445, R457-R460, R464). -/
namespace Sys2Proof.Machine

theorem needEvidence_ok {r : Req} (h : isEvidenceTenant r = true) : needEvidence r = .ok () := need_ok h

theorem journalStatus_holds : effJournalStatus.Holds := by
  refine HostEffect.holds_of_hostCmd (fun r s => (rfl : exec _ s = execJournalStatus r s)) fun r s d _ h => ?_
  obtain ⟨hevidence, hlen⟩ := Bool.and_eq_true_iff.1 h
  rw [needEvidence_ok hevidence, ok_bind, param_ok hlen]
  rfl

theorem journalHead_holds : effJournalHead.Holds := by
  refine HostEffect.holds_of_hostCmd (fun r s => (rfl : exec _ s = execJournalHead r s)) fun r s d _ h => ?_
  obtain ⟨hevidence, hlen⟩ := Bool.and_eq_true_iff.1 h
  rw [needEvidence_ok hevidence, ok_bind, param_ok hlen]
  rfl

theorem lifecycle_beq (a b : Lifecycle) : (a == b) = decide (a = b) := rfl

/-- A device in RETURNED or SCORCHED answers in the open; any other one answers an evidence tenant in an encrypted frame (R473). -/
theorem segmentRead_holds : effSegmentRead.Holds := by
  refine HostEffect.holds_of_hostCmd (fun r s => (rfl : exec _ s = execSegmentRead r s)) fun r s d _ h => ?_
  simp only [effSegmentRead, Bool.and_eq_true, and_assoc] at h
  obtain ⟨hissuer, hopen, hsized, hbits, hstream, hsome⟩ := h
  obtain ⟨c, hcontent⟩ := Option.isSome_iff_exists.1 hsome
  simp only [lifecycle_beq] at hissuer hopen
  dsimp only
  rw [need_ok hissuer, ok_bind, need_ok hopen, ok_bind, param_ok (by rw [hsized, hbits, hstream]; rfl), ok_bind, hcontent]
  simp only [effSegmentRead, hcontent]
  rfl

theorem traceRead_holds : effTraceRead.Holds := by
  refine HostEffect.holds_of_hostCmd (fun r s => (rfl : exec _ s = execTraceRead r s)) fun r s d _ h => ?_
  simp only [effTraceRead, Bool.and_eq_true, and_assoc] at h
  obtain ⟨hevidence, hsized, hbits⟩ := h
  rw [needEvidence_ok hevidence, ok_bind, param_ok (by rw [hsized, hbits]; rfl)]
  rfl

/-- Settles O11: under its effect's conditions each read passes its checks, and its body answers words over the device as it is. -/
theorem journalReadsAnswer : Obligations.JournalReadsAnswer :=
  ⟨journalStatus_holds, journalHead_holds, segmentRead_holds, traceRead_holds⟩

/-- A check that a tenant's record alone has to pass, before the rest of its append (R457). -/
theorem tenantRecordNeed_bind {α : Type} {t : Nat} {c : Bool} {st : Byte} {x : Res α} (h : t = 0x70 → c = true) :
    (if t == 0x70 then need c st >>= fun _ => x else .ok () >>= fun _ => x) = x := by
  split
  next ht => rw [need_ok (h (beq_iff_eq.1 ht)), ok_bind]
  next => rfl

/-- The two limits on a tenant's records, of its day and of the main stream, hold back no other type (R457). -/
theorem journalAppend_holds : effJournalAppend.Holds := by
  refine HostEffect.holds_of_hostCmd (fun r s => (rfl : exec _ s = execJournalAppend r s)) fun r s d _ h => ?_
  simp only [effJournalAppend, Bool.and_eq_true, and_assoc] at h
  obtain ⟨hmay, htakes, hbits, hfields, hlimited, hopen⟩ := h
  obtain ⟨⟨⟩, htaken⟩ := eq_ok_of_isOk htakes
  obtain ⟨⟨vs, payload⟩, hvals⟩ := Option.isSome_iff_exists.1 hfields
  have hlimits : r.f 0 47 40 = 0x70 → decide (usedToday r d < quotaOf d r recRecords) = true ∧ decide (mainFill d < 418) = true := by
    intro ht
    simpa only [ht, bne_self_eq_false, Bool.false_or, Bool.and_eq_true] using hlimited
  have hplaced : appendOf r d = appendAt (r.f 0 47 40) d.time.quality.code 0 (stamp d vs) (.bits (byteBits payload)) d := by
    rw [appendOf, hvals]; rfl
  rw [need_ok hmay, ok_bind]
  dsimp only
  rw [htaken, ok_bind, param_ok hbits, ok_bind, hvals]
  dsimp only
  rw [tenantRecordNeed_bind (by exact fun ht => (hlimits ht).1), tenantRecordNeed_bind (by exact fun ht => (hlimits ht).2), ← hplaced]
  simp only [effJournalAppend, hvals, Option.getD_some]
  generalize appendOf r d = p at hopen
  obtain ⟨_ | _ | _, e⟩ := p
  case closed => cases hopen
  case summarised => rfl
  case written => rfl

/-- The key of an export is a slot that the command may use, and of the type that exports take. -/
theorem useSlot_of_exportKey {r : Req} {d e : Dev} {k : Slot} (h : exportKey r d = some (k, e)) :
    useSlot r (r.w 3) (some Usage.encrypt) d = .ok (k, e) ∧ (k.ktype == 3) = true := by
  unfold exportKey at h
  split at h
  next hslot =>
    obtain ⟨htype, heq⟩ := Option.ite_none_right_eq_some.1 h
    cases heq
    exact ⟨hslot, htype⟩
  next => cases h

theorem journalExport_holds : effJournalExport.Holds := by
  refine HostEffect.holds_of_hostCmd (fun r s => (rfl : exec _ s = execJournalExport r s)) fun r s d _ h => ?_
  simp only [effJournalExport, Bool.and_eq_true, and_assoc] at h
  obtain ⟨hevidence, hsized, hbits, hstream, hclosed, hsome⟩ := h
  obtain ⟨⟨k, e⟩, hkey⟩ := Option.isSome_iff_exists.1 hsome
  obtain ⟨hslot, htype⟩ := useSlot_of_exportKey hkey
  rw [needEvidence_ok hevidence, ok_bind]
  dsimp only
  rw [param_ok (by rw [hsized, hbits, hstream, hclosed]; rfl), ok_bind, hslot, ok_bind]
  dsimp only
  rw [param_ok htype, ok_bind, outcome_startLong]
  simp only [effJournalExport, hkey]

/-- The operation may be gone or go on after its chunks; when they have ended it, the reply is its final one (R268, R459). -/
theorem exportChunk_holds : effExportChunk.Holds := by
  refine HostEffect.holds_of_hostCmd (fun r s => (rfl : exec _ s = execExportChunk r s)) fun r s d _ h => ?_
  simp only [effExportChunk, Bool.and_eq_true, and_assoc] at h
  obtain ⟨hevidence, hsized, hbits, hmin, hmax, hlong⟩ := h
  split at hlong
  next l hl =>
    rw [needEvidence_ok hevidence, ok_bind]
    dsimp only
    rw [param_ok (by rw [hsized, hbits, hmin, hmax]; rfl), ok_bind, hl, ok_bind, param_ok hlong, ok_bind]
    simp only [effExportChunk, orElse_eq hl]
    generalize exportChunks (r.f 0 47 40) l.handle d = x
    cases longAt x.2.2 l.handle with
    | none => rfl
    | some m =>
      dsimp only
      rw [longState_beq]
      by_cases hdone : m.state = .done
      · rw [if_pos hdone, if_pos (decide_eq_true hdone), outcome_final]
      · rw [if_neg hdone, if_neg (by simpa using hdone)]
        rfl
  next => cases hlong

/-- With an engine that is idle a program of SEC's own runs at once (log 54). -/
theorem untilEngine_idle {d : Dev} {x : Res (Dev × Done)} (hany : anyEngine d = true) (hidle : engineIdle d = true) :
    untilEngine d x = x := by
  rw [untilEngine, hany, hidle]
  rfl

/-- Whether a receipt fits decides between its record and RECEIPT_INVALID; the stream it names decides which mark moves (R460). -/
theorem receiptSubmit_holds : effReceiptSubmit.Holds := by
  refine HostEffect.holds_of_hostCmd (fun r s => (rfl : exec _ s = execReceiptSubmit r s)) fun r s d hd h => ?_
  simp only [effReceiptSubmit, Bool.and_eq_true, and_assoc] at h
  obtain ⟨howner, hsession, hsized, hflags, hbits, hversion, hstream, hany, hidle⟩ := h
  rw [needOwner_ok (by rw [howner, hsession]; rfl), ok_bind]
  dsimp only
  rw [param_ok (by rw [hsized, hflags, hbits]; rfl), ok_bind, param_ok (by rw [hversion, hstream]; rfl), ok_bind,
    untilEngine_idle hany hidle]
  simp only [effReceiptSubmit]
  by_cases hfits : receiptFits r d = true
  · rw [if_pos hfits, need_ok (by exact hfits), ok_bind]
    cases r.f 0 39 32 == 1 with
    | true => rfl
    | false => rfl
  · rw [if_neg hfits, need_bind_false (by exact Bool.eq_false_iff.2 hfits), outcome_rej_plain _ _ _ rfl, hd]

/-- Settles O10, a clause a row: under its effect's conditions each row's checks pass and its body makes the effect. -/
theorem journalWritesComplete : Obligations.JournalWritesComplete :=
  ⟨journalAppend_holds, journalExport_holds, exportChunk_holds, receiptSubmit_holds⟩

end Sys2Proof.Machine
end

section
/-! PROOFS. Class 0x0A: what TAMPER_STATUS and TAMPER_SOURCES answer and what TAMPER_INJECT confirms (R515, R516); the level at which a
confirmation is executed (R481, R486). -/
namespace Sys2Proof.Machine

theorem tamperStatus_holds : effTamperStatus.Holds := by
  refine HostEffect.holds_of_hostCmd (fun r s => (rfl : exec _ s = execTamperStatus r s)) fun r s d _ h => ?_
  obtain ⟨htenant, hlen⟩ := Bool.and_eq_true_iff.1 h
  rw [needTenant_ok htenant, ok_bind, param_ok hlen]
  rfl

theorem tamperSources_holds : effTamperSources.Holds := by
  refine HostEffect.holds_of_hostCmd (fun r s => (rfl : exec _ s = execTamperSources r s)) fun r s d _ h => ?_
  obtain ⟨hreader, hlen⟩ := Bool.and_eq_true_iff.1 h
  rw [need_ok (by exact hreader), ok_bind, param_ok hlen]
  rfl

/-- The owner injects in MANUFACTURE, or on a KV4856-D in any state, and a source that exists (R516). -/
theorem tamperInject_holds : effTamperInject.Holds := by
  refine HostEffect.holds_of_hostCmd (fun r s => (rfl : exec _ s = execTamperInject r s)) fun r s d _ h => ?_
  simp only [effTamperInject, Bool.and_eq_true, and_assoc] at h
  obtain ⟨howner, hclass, hsized, hsource, hvalue, hexists⟩ := h
  rw [lifecycle_beq] at hclass
  rw [need_ok (by rw [howner, hclass]; rfl), ok_bind, param_ok (by rw [hsized, hsource, hvalue, hexists]; rfl)]
  rfl

/-- Settles O14: under its effect's conditions each row passes its checks; the reads leave the device as it is, and an injection is a
confirmation with flag 8. -/
theorem tamperCommandsComplete : Obligations.TamperCommandsComplete := ⟨tamperStatus_holds, tamperSources_holds, tamperInject_holds⟩

/-- In DEPARTED (R486) and in SCORCHED (log 21) an L3 of the maximum is executed as L2. -/
theorem srcLevel_departed_or_scorched {d : Dev} (h : d.lifecycle = .departed ∨ d.lifecycle = .scorched) (i : Nat) :
    srcLevel d i = if max (srcPattern d i) (srcMin d i) = 3 then 2 else max (srcPattern d i) (srcMin d i) := by
  have hcapped : (decide (d.lifecycle = .departed) || decide (d.lifecycle = .scorched)) = true := by simpa using h
  simp only [srcLevel, hcapped, Bool.and_true, beq_iff_eq]

/-- In every other state the level executed is the maximum itself (R481). -/
theorem srcLevel_eq_max {d : Dev} (hdeparted : d.lifecycle ≠ .departed) (hscorched : d.lifecycle ≠ .scorched) (i : Nat) :
    srcLevel d i = max (srcPattern d i) (srcMin d i) := by
  simp [srcLevel, hdeparted, hscorched]

/-- Settles O56, by the two cases of the lifecycle in which R486's replacement applies and does not. -/
theorem departedTakesL3AsL2 : Obligations.DepartedTakesL3AsL2 :=
  ⟨fun _ i hdeparted => srcLevel_departed_or_scorched (.inl hdeparted) i,
    fun _ i hdeparted hscorched => srcLevel_eq_max hdeparted hscorched i⟩

end Sys2Proof.Machine
end

section
/-! PROOFS. Applet instruction words: the fields of each format read back, and a word is made of its fields (R656, R657). -/
namespace Sys2Proof

theorem extract_eq_of_toNat {w n : Nat} {x : BitVec w} {lo : Nat} {v : BitVec n} (h : x.toNat / 2 ^ lo % 2 ^ n = v.toNat) :
    x.extractLsb' lo n = v :=
  BitVec.eq_of_toNat_eq ((extract_toNat x lo n).trans h)

section Fields

variable (op : BitVec 6) (a b c : BitVec 4) (imm10 : BitVec 10) (imm14 : BitVec 14) (target : BitVec 15) (opcode : BitVec 16)

-- R format

@[simp] theorem fOp_encR : fOp (encR op a b c) = op := extract_eq_of_toNat (by rw [encR_toNat]; omega)
@[simp] theorem fRd_encR : fRd (encR op a b c) = a := extract_eq_of_toNat (by rw [encR_toNat]; omega)
@[simp] theorem fRa_encR : fRa (encR op a b c) = b := extract_eq_of_toNat (by rw [encR_toNat]; omega)
@[simp] theorem fRb_encR : fRb (encR op a b c) = c := extract_eq_of_toNat (by rw [encR_toNat]; omega)

@[simp] theorem zeroLow_encR : zeroLow (encR op a b c) = true :=
  beq_iff_eq.2 (extract_eq_of_toNat (v := 0#6) (by rw [encR_toNat, BitVec.toNat_ofNat]; omega))

@[simp] theorem noOperands_encR : noOperands (encR op 0#4 0#4 0#4) = true :=
  beq_iff_eq.2 (extract_eq_of_toNat (v := 0#18) (by rw [encR_toNat]; simp only [BitVec.toNat_ofNat]; omega))

/-- A word with rd alone has its 14 low bits zero. -/
@[simp] theorem low14_encR : (encR op a 0#4 0#4).extractLsb' 0 14 = 0#14 :=
  extract_eq_of_toNat (by rw [encR_toNat]; simp only [BitVec.toNat_ofNat]; omega)

-- I format

@[simp] theorem fOp_encI : fOp (encI op a b imm10) = op := extract_eq_of_toNat (by rw [encI_toNat]; omega)
@[simp] theorem fRd_encI : fRd (encI op a b imm10) = a := extract_eq_of_toNat (by rw [encI_toNat]; omega)
@[simp] theorem fRa_encI : fRa (encI op a b imm10) = b := extract_eq_of_toNat (by rw [encI_toNat]; omega)
@[simp] theorem fImm10_encI : fImm10 (encI op a b imm10) = imm10 := extract_eq_of_toNat (by rw [encI_toNat]; omega)

-- L format

@[simp] theorem fOp_encL : fOp (encL op a imm14) = op := extract_eq_of_toNat (by rw [encL_toNat]; omega)
@[simp] theorem fRd_encL : fRd (encL op a imm14) = a := extract_eq_of_toNat (by rw [encL_toNat]; omega)
@[simp] theorem fImm14_encL : fImm14 (encL op a imm14) = imm14 := extract_eq_of_toNat (by rw [encL_toNat]; omega)

-- J format

@[simp] theorem fOp_encJ : fOp (encJ op target) = op := extract_eq_of_toNat (by rw [encJ_toNat]; omega)
@[simp] theorem fTarget_encJ : fTarget (encJ op target) = target := extract_eq_of_toNat (by rw [encJ_toNat]; omega)

@[simp] theorem reserved_encJ : (encJ op target).extractLsb' 15 3 = 0#3 :=
  extract_eq_of_toNat (by rw [encJ_toNat, BitVec.toNat_ofNat]; omega)

-- S format

@[simp] theorem fOp_encS : fOp (encS op opcode) = op := extract_eq_of_toNat (by rw [encS_toNat]; omega)
@[simp] theorem fOpcode_encS : fOpcode (encS op opcode) = opcode := extract_eq_of_toNat (by rw [encS_toNat]; omega)

@[simp] theorem reserved_encS : (encS op opcode).extractLsb' 16 2 = 0#2 :=
  extract_eq_of_toNat (by rw [encS_toNat, BitVec.toNat_ofNat]; omega)

end Fields

/-- Settles O50, by formats: each instruction's opcode picks its arm of the decoder, and the fields of its word read back. -/
theorem appletDecodeOfEncode : Obligations.AppletDecodeOfEncode := by
  intro i
  cases i with
  -- R format
  | add | sub | and | or | xor | shl | shr | sar | mul | mulhu | divu | remu | slt | sltu => simp [encodeApplet, decodeApplet]
  | nop | halt | jr | callr | tick | fuel | rand => simp [encodeApplet, decodeApplet]
  -- I format
  | addi | andi | ori | xori | shli | shri | sari | slti | sltiu | ld | st | ldb | stb | beq | bne | blt | bltu =>
    simp [encodeApplet, decodeApplet]
  -- L format
  | trap | ldi | ldx | beqz | bnez | bltz | bgez => simp [encodeApplet, decodeApplet]
  -- J and S formats
  | jmp | call | svc => simp [encodeApplet, decodeApplet]

section Words

variable {op : BitVec 6} {w : BitVec 24}

theorem fields_toNat (w : BitVec 24) : (fOp w).toNat = w.toNat / 2 ^ 18 % 2 ^ 6 ∧ (fRd w).toNat = w.toNat / 2 ^ 14 % 2 ^ 4
    ∧ (fRa w).toNat = w.toNat / 2 ^ 10 % 2 ^ 4 ∧ (fRb w).toNat = w.toNat / 2 ^ 6 % 2 ^ 4 :=
  ⟨extract_toNat w 18 6, extract_toNat w 14 4, extract_toNat w 10 4, extract_toNat w 6 4⟩

/-- Bits of a word that are required to be zero, as a number. -/
theorem toNat_of_zeroBits {lo n : Nat} (h : (w.extractLsb' lo n == 0#n) = true) : w.toNat / 2 ^ lo % 2 ^ n = 0 := by
  have hzero := congrArg BitVec.toNat (eq_of_beq h)
  rwa [extract_toNat, BitVec.toNat_ofNat, Nat.zero_mod] at hzero

theorem encR_fields (hop : (fOp w).toNat = op.toNat) (hzero : zeroLow w = true) : encR op (fRd w) (fRa w) (fRb w) = w := by
  have hlow := toNat_of_zeroBits hzero
  obtain ⟨hopcode, hrd, hra, hrb⟩ := fields_toNat w
  exact BitVec.eq_of_toNat_eq (by rw [encR_toNat]; omega)

theorem encI_fields (hop : (fOp w).toNat = op.toNat) : encI op (fRd w) (fRa w) (fImm10 w) = w := by
  have himm : (fImm10 w).toNat = w.toNat / 2 ^ 0 % 2 ^ 10 := extract_toNat w 0 10
  obtain ⟨hopcode, hrd, hra, hrb⟩ := fields_toNat w
  exact BitVec.eq_of_toNat_eq (by rw [encI_toNat]; omega)

theorem encL_fields (hop : (fOp w).toNat = op.toNat) : encL op (fRd w) (fImm14 w) = w := by
  have himm : (fImm14 w).toNat = w.toNat / 2 ^ 0 % 2 ^ 14 := extract_toNat w 0 14
  obtain ⟨hopcode, hrd, hra, hrb⟩ := fields_toNat w
  exact BitVec.eq_of_toNat_eq (by rw [encL_toNat]; omega)

theorem encJ_fields (hop : (fOp w).toNat = op.toNat) (hzero : (w.extractLsb' 15 3 == 0) = true) : encJ op (fTarget w) = w := by
  have htarget : (fTarget w).toNat = w.toNat / 2 ^ 0 % 2 ^ 15 := extract_toNat w 0 15
  have hreserved := toNat_of_zeroBits hzero
  obtain ⟨hopcode, hrd, hra, hrb⟩ := fields_toNat w
  exact BitVec.eq_of_toNat_eq (by rw [encJ_toNat]; omega)

theorem encS_fields (hop : (fOp w).toNat = op.toNat) (hzero : (w.extractLsb' 16 2 == 0) = true) : encS op (fOpcode w) = w := by
  have hcode : (fOpcode w).toNat = w.toNat / 2 ^ 0 % 2 ^ 16 := extract_toNat w 0 16
  have hreserved := toNat_of_zeroBits hzero
  obtain ⟨hopcode, hrd, hra, hrb⟩ := fields_toNat w
  exact BitVec.eq_of_toNat_eq (by rw [encS_toNat]; omega)

/-- A word without operands is its opcode. -/
theorem encR_noOperands (hop : (fOp w).toNat = op.toNat) (hzero : noOperands w = true) : encR op 0#4 0#4 0#4 = w := by
  have hlow := toNat_of_zeroBits hzero
  obtain ⟨hopcode, hrd, hra, hrb⟩ := fields_toNat w
  exact BitVec.eq_of_toNat_eq (by rw [encR_toNat, BitVec.toNat_ofNat]; omega)

/-- A word whose 14 low bits are zero names rd alone. -/
theorem encR_rd (hop : (fOp w).toNat = op.toNat) (hzero : (w.extractLsb' 0 14 == 0) = true) : encR op (fRd w) 0#4 0#4 = w := by
  have hlow := toNat_of_zeroBits hzero
  obtain ⟨hopcode, hrd, hra, hrb⟩ := fields_toNat w
  exact BitVec.eq_of_toNat_eq (by rw [encR_toNat, BitVec.toNat_ofNat]; omega)

/-- A word whose rd, rb and low bits are zero names ra alone. -/
theorem encR_ra (hop : (fOp w).toNat = op.toNat) (hzero : (fRd w == 0 && fRb w == 0 && zeroLow w) = true) :
    encR op 0 (fRa w) 0 = w := by
  simp only [Bool.and_eq_true, beq_iff_eq, and_assoc] at hzero
  obtain ⟨hd, hb, hlow⟩ := hzero
  have hword := encR_fields hop hlow
  rwa [hd, hb] at hword

/-- TRAP's word: rd is zero, the immediate is its code. -/
theorem encL_imm (hop : (fOp w).toNat = op.toNat) (hzero : (fRd w == 0) = true) : encL op 0 (fImm14 w) = w := by
  have hword := encL_fields hop
  rwa [eq_of_beq hzero] at hword

end Words

/-- What an arm of the decoder behind a check of zero bits gives. -/
theorem encode_of_checked {c : Bool} {x i : AppletInstr} {w : BitVec 24} (h : (if c then some x else none) = some i)
    (hx : c = true → encodeApplet x = w) : encodeApplet i = w := by
  obtain ⟨hc, heq⟩ := Option.ite_none_right_eq_some.1 h
  rw [← Option.some.inj heq, hx hc]

/-- What an arm without one gives. -/
theorem encode_of_unchecked {x i : AppletInstr} {w : BitVec 24} (h : some x = some i) (hx : encodeApplet x = w) : encodeApplet i = w := by
  rw [← Option.some.inj h, hx]

/-- Settles O51, by the decoder's arms, a format at a time: the arm's opcode and zero bits make the word from its fields. -/
theorem appletEncodeOfDecode : Obligations.AppletEncodeOfDecode := by
  intro w i h
  unfold decodeApplet at h
  dsimp only at h
  split at h
  -- NOP, HALT, TRAP
  case h_1 hop | h_2 hop => exact encode_of_checked h (encR_noOperands hop)
  case h_3 hop => exact encode_of_checked h (encL_imm hop)
  -- R format
  case h_4 hop | h_5 hop | h_6 hop | h_7 hop | h_8 hop | h_9 hop | h_10 hop | h_11 hop | h_12 hop | h_13 hop | h_14 hop | h_15 hop |
    h_16 hop | h_17 hop =>
    exact encode_of_checked h (encR_fields hop)
  -- I format
  case h_18 hop | h_19 hop | h_20 hop | h_21 hop | h_22 hop | h_23 hop | h_24 hop | h_25 hop | h_26 hop | h_27 hop | h_28 hop | h_29 hop |
    h_30 hop | h_31 hop | h_32 hop | h_33 hop | h_34 hop =>
    exact encode_of_unchecked h (encI_fields hop)
  -- L format
  case h_35 hop | h_36 hop | h_37 hop | h_38 hop | h_39 hop | h_40 hop => exact encode_of_unchecked h (encL_fields hop)
  -- J format, and jumps to a register
  case h_41 hop | h_42 hop => exact encode_of_checked h (encJ_fields hop)
  case h_43 hop | h_44 hop => exact encode_of_checked h (encR_ra hop)
  -- SVC, and TICK, FUEL and RAND
  case h_45 hop => exact encode_of_checked h (encS_fields hop)
  case h_46 hop | h_47 hop | h_48 hop => exact encode_of_checked h (encR_rd hop)
  -- a reserved opcode
  case h_49 => cases h

/-- Settles O52: six words as their fields give them, a reserved opcode, and a HALT with a bit set. -/
theorem appletWordsDecode : Obligations.AppletWordsDecode := ⟨rfl, rfl, rfl, rfl, rfl, rfl, rfl, rfl⟩

end Sys2Proof
end

section
/-! PROOFS. Class 0x0B: certificates, statements, responses and the factory's commands (R517-R530, R536). -/
namespace Sys2Proof.Machine

theorem attestCert_holds : effAttestCert.Holds := by
  refine HostEffect.holds_of_hostCmd (fun r s => (rfl : exec _ s = execAttestCert r s)) fun r s d _ h => ?_
  simp only [effAttestCert, Bool.and_eq_true, and_assoc] at h
  obtain ⟨hsized, hbits, hindex, hsome⟩ := h
  obtain ⟨c, hc⟩ := Option.isSome_iff_exists.1 hsome
  rw [ok_bind, param_ok (by rw [hsized, hbits, hindex]; rfl), ok_bind, hc]
  simp only [effAttestCert, hc]
  rfl

/-- The counts of the window that the tick is in: those of a window gone by start anew (R530). -/
theorem attWindow_eq (d : Dev) : attWindow d = { d.att with
    window := d.now / 4096
    statements := if d.att.window == d.now / 4096 then d.att.statements else 0
    responses := if d.att.window == d.now / 4096 then d.att.responses else 0 } := by
  unfold attWindow
  split
  next hwindow => rw [← eq_of_beq hwindow]
  next => rfl

/-- A count of the window that is below its limit, whichever window it was last kept in. -/
theorem windowCount_lt {d : Dev} {n limit : Nat} (hlimit : 0 < limit) (h : (d.att.window != d.now / 4096 || decide (n < limit)) = true) :
    (if d.att.window == d.now / 4096 then n else 0) < limit := by
  split
  next hwindow =>
    rw [bne, hwindow] at h
    exact of_decide_eq_true h
  next => exact hlimit

theorem takeStatement_ok {d : Dev} (h : statementsLeft d = true) : takeStatement d = .ok (withStatement d) := by
  rw [takeStatement, attWindow_eq]
  exact if_pos (windowCount_lt (by decide) h)

theorem takeResponse_ok {d : Dev} (h : responsesLeft d = true) : takeResponse d = .ok (withResponse d) := by
  rw [takeResponse, attWindow_eq]
  exact if_pos (windowCount_lt (by decide) h)

/-- Past its checks ATTEST_STATEMENT counts itself in the window and signs, or has failed its output check on both tries. -/
theorem exec_attestStatement {r : Req} {s : State} (outputOk : Bool) (hserved : Served 0x0B02 r s.dev)
    (h : effAttestStatement.pre r (taken r s.dev) = true) :
    exec (.attestStatement r outputOk) s = outcome r s
      (if !outputOk then .ok (statementFailed (withStatement (taken r s.dev)), .reply St.internalFault [] 0)
        else signStatement ((taken r s.dev).att.key.getD {}) (bitOf (r.w 0) 0)
          (statementBody (withStatement (taken r s.dev)) (bitOf (r.w 0) 0) (slice r.words 1 8)) (withStatement (taken r s.dev))) := by
  simp only [effAttestStatement, Bool.and_eq_true, and_assoc] at h
  obtain ⟨hidentity, hsized, hbits, hhybrid, hany, hidle, hrandom, hleft, hkey⟩ := h
  obtain ⟨k, hk⟩ := Option.isSome_iff_exists.1 hkey
  change execAttestStatement r outputOk s = _
  rw [execAttestStatement, hostCmd_eq hserved, ok_bind, need_ok hidentity, ok_bind]
  dsimp only
  rw [param_ok (by rw [hsized, hbits, hhybrid]; rfl), ok_bind, need_ok (by rw [hany, hrandom]; rfl), ok_bind, takeStatement_ok hleft,
    ok_bind, hk]
  dsimp only
  rw [untilEngine_idle hany hidle]
  rfl

theorem attestStatement_holds : effAttestStatement.Holds := by
  intro r s hserved h
  refine (exec_attestStatement true hserved h).trans ?_
  rw [signStatement]
  simp only [effAttestStatement]
  cases bitOf (r.w 0) 0 with
  | true => rfl
  | false => rfl

theorem attestStatementFails_holds : effAttestStatementFails.Holds :=
  fun _ _ hserved h => exec_attestStatement false hserved h

/-- The words are selected, and their MAC taken, on the device that counts the response. -/
theorem challengeRespond_holds : effChallengeRespond.Holds := by
  refine HostEffect.holds_of_hostCmd (fun r s => (rfl : exec _ s = execChallengeRespond r s)) fun r s d _ h => ?_
  simp only [effChallengeRespond, Bool.and_eq_true, and_assoc] at h
  obtain ⟨hsized, hbits, hoperand, hleft, hsome, hbase, hderives⟩ := h
  obtain ⟨e, he⟩ := Option.isSome_iff_exists.1 hsome
  have hentry : classEntry ((withResponse d).image r.gen) (r.f 0 47 32) = some e := he
  have hbase' : baseReachable (withResponse d) = true := hbase
  rw [ok_bind]
  dsimp only
  rw [param_ok (by rw [hsized, hbits, hoperand]; rfl), ok_bind, takeResponse_ok hleft, ok_bind, hentry]
  dsimp only
  rw [need_ok (by rw [hbase']; exact hderives), ok_bind]
  simp only [effChallengeRespond, he]
  rfl

theorem needFactoryOwner_ok {r : Req} {d : Dev} (howner : (r.tenant == 0) = true) (hsession : r.inSession = true)
    (hfactory : (d.lifecycle == .manufacture) = true) : needFactoryOwner r d = .ok () :=
  need_ok (by rw [howner, hsession, ← lifecycle_beq, hfactory]; rfl)

theorem attestKeygen_holds : effAttestKeygen.Holds := by
  refine HostEffect.holds_of_hostCmd (fun r s => (rfl : exec _ s = execAttestKeygen r s)) fun r s d _ h => ?_
  simp only [effAttestKeygen, Bool.and_eq_true, and_assoc] at h
  obtain ⟨howner, hsession, hfactory, hlen, hunsealed, hwindow, hany, hidle, hrandom⟩ := h
  rw [needFactoryOwner_ok howner hsession hfactory, ok_bind, param_ok hlen, ok_bind, need_ok hunsealed, ok_bind, need_ok hwindow, ok_bind,
    need_ok (by rw [hany, hrandom]; rfl), ok_bind, untilEngine_idle hany hidle]
  rfl

theorem certLimit_eq {i : Nat} (h : i ≤ 2) : [2048, 8192, 4096].getD i 0 = certLimit i := by
  interval_cases i <;> rfl

/-- Whether the subject key is the device's decides between the certificate and PARAM_RANGE (R518). -/
theorem attestCertWrite_holds : effAttestCertWrite.Holds := by
  refine HostEffect.holds_of_hostCmd (fun r s => (rfl : exec _ s = execAttestCertWrite r s)) fun r s d hd h => ?_
  simp only [effAttestCertWrite, Bool.and_eq_true, and_assoc] at h
  obtain ⟨howner, hsession, hfactory, hbits, hindex, hmin, hmax, htail⟩ := h
  rw [certLimit_eq (of_decide_eq_true hindex)] at hmax
  rw [needFactoryOwner_ok howner hsession hfactory, ok_bind]
  dsimp only
  rw [param_ok (by rw [hbits, hindex, hmin, hmax, htail]; rfl), ok_bind]
  simp only [effAttestCertWrite]
  cases hfits : certFits d (r.f 0 7 0) (r.bytesFrom 1 (r.f 0 31 16)) with
  | true => rfl
  | false => rw [param, need_bind_false rfl, outcome_rej_plain _ _ _ rfl, hd]; rfl

theorem verifierSecretExport_holds : effVerifierSecretExport.Holds := by
  refine HostEffect.holds_of_hostCmd (fun r s => (rfl : exec _ s = execVerifierSecretExport r s)) fun r s d _ h => ?_
  simp only [effVerifierSecretExport, Bool.and_eq_true, and_assoc] at h
  obtain ⟨howner, hadmin, hencrypted, hsized, hbits, hsome, hbase, hderives⟩ := h
  obtain ⟨e, he⟩ := Option.isSome_iff_exists.1 hsome
  rw [need_ok (by rw [howner, hadmin, hencrypted]; rfl), ok_bind, param_ok (by rw [hsized, hbits]; rfl), ok_bind, he]
  dsimp only
  rw [need_ok (by rw [hbase, hderives]; rfl), ok_bind]
  simp only [effVerifierSecretExport, he]
  rfl

/-- Settles O15, a clause a row: under its effect's conditions each row's checks pass and its body makes the effect. -/
theorem attestCommandsComplete : Obligations.AttestCommandsComplete :=
  ⟨attestCert_holds, attestStatement_holds, attestStatementFails_holds, challengeRespond_holds, attestKeygen_holds, attestCertWrite_holds,
    verifierSecretExport_holds⟩

end Sys2Proof.Machine
end

section
/-! PROOFS. Class 0x0C: reads and edits of images, STORE and REVERT (R544-R558, R573). -/
namespace Sys2Proof.Machine

theorem needPatternOwner_ok {r : Req} (h : (r.tenant == 0) = true) : needPatternOwner r = .ok () := need_ok h

/-- The image that a source code names, as PATTERN_READ finds it (R573). -/
theorem imageNamed_cases {src : Nat} {d : Dev} {x : List Word × Nat} (h : imageNamed src d = some x) :
    (src = 1 ∧ x = (d.pat.image, d.pat.gen)) ∨ (src = 3 ∧ x = ((staged d).image, (staged d).base))
      ∨ (src = 2 ∧ ∃ b, previousBank d = some b ∧ x = (b.image, b.gen)) := by
  unfold imageNamed at h
  split at h
  next hsrc => exact .inl ⟨eq_of_beq hsrc, (Option.some.inj h).symm⟩
  next =>
    split at h
    next hsrc => exact .inr (.inl ⟨eq_of_beq hsrc, (Option.some.inj h).symm⟩)
    next =>
      obtain ⟨hsrc, hbank⟩ := Option.ite_none_right_eq_some.1 h
      obtain ⟨b, hb, rfl⟩ := Option.map_eq_some_iff.1 hbank
      exact .inr (.inr ⟨eq_of_beq hsrc, b, hb, rfl⟩)

theorem patternRead_holds : effPatternRead.Holds := by
  refine HostEffect.holds_of_hostCmd (fun r s => (rfl : exec _ s = execPatternRead r s)) fun r s d _ h => ?_
  simp only [effPatternRead, Bool.and_eq_true, and_assoc] at h
  obtain ⟨howner, hsized, hbits, hany⟩ := h
  obtain ⟨x, hx, hrange⟩ := (Option.any_eq_true _ _).1 hany
  rw [needPatternOwner_ok howner, ok_bind]
  simp only [effPatternRead, hx, Option.getD_some]
  obtain ⟨hsrc, rfl⟩ | ⟨hsrc, rfl⟩ | ⟨hsrc, b, hb, rfl⟩ := imageNamed_cases hx
  all_goals
    rw [hsrc, param_ok (by rw [hsized, hbits]; rfl), ok_bind]
  · rw [if_pos (by decide), ok_bind, param_ok hrange]
    rfl
  · rw [if_neg (by decide), if_pos (by decide), ok_bind, param_ok hrange]
    rfl
  · rw [if_neg (by decide), if_neg (by decide), hb]
    dsimp only
    rw [ok_bind, param_ok hrange]
    rfl

theorem patternWrite_holds : effPatternWrite.Holds := by
  refine HostEffect.holds_of_hostCmd (fun r s => (rfl : exec _ s = execPatternWrite r s)) fun r s d _ h => ?_
  simp only [effPatternWrite, Bool.and_eq_true, and_assoc] at h
  obtain ⟨howner, hsized, hbits, hsome, hmin, hmax, hfields, hedits⟩ := h
  rw [needPatternOwner_ok howner, ok_bind]
  dsimp only
  rw [param_ok (by rw [hsized, hbits, hsome, hmin, hmax]; rfl), ok_bind, param_ok hfields, ok_bind, stageEdit_ok _ hedits, ok_bind]
  rfl

theorem patternDiscard_holds : effPatternDiscard.Holds := by
  refine HostEffect.holds_of_hostCmd (fun r s => (rfl : exec _ s = execPatternDiscard r s)) fun r s d _ h => ?_
  obtain ⟨howner, hlen⟩ := Bool.and_eq_true_iff.1 h
  rw [needPatternOwner_ok howner, ok_bind, param_ok hlen]
  rfl

theorem patternInfo_holds : effPatternInfo.Holds := by
  refine HostEffect.holds_of_hostCmd (fun r s => (rfl : exec _ s = execPatternInfo r s)) fun r s d _ h => ?_
  obtain ⟨htenant, hlen⟩ := Bool.and_eq_true_iff.1 h
  rw [needTenant_ok htenant, ok_bind, param_ok hlen]
  rfl

/-- A commit may begin, none is under way, and the day and the generations have room for one. -/
theorem commitOpen_ok {d : Dev} (h : commitOpen d = true) :
    commitAllowed d = .ok () ∧ commitPending d = false ∧ commitLimits d = .ok () := by
  simp only [commitOpen, Bool.and_eq_true, Bool.not_eq_true', bne_iff_ne, and_assoc] at h
  obtain ⟨hreturned, hdeparted, hscorched, hold, hsucc, hover, hpending, hday, hgen⟩ := h
  refine ⟨?_, hpending, ?_⟩
  · rw [commitAllowed, need_ok (by simpa using hreturned), ok_bind, need_ok (by simpa using hdeparted), ok_bind,
      need_ok (by simpa using hscorched), ok_bind, need_ok (by rw [hold, bne_iff_ne.2 hsucc, hover]; rfl)]
  · rw [commitLimits, need_ok hday, ok_bind, need_ok (bne_iff_ne.2 hgen)]

theorem patternStore_holds : effPatternStore.Holds := by
  refine HostEffect.holds_of_hostCmd (fun r s => (rfl : exec _ s = execPatternStore r s)) fun r s d _ h => ?_
  simp only [effPatternStore, Bool.and_eq_true, and_assoc] at h
  obtain ⟨howner, hopen, hsized, hbits, hbase, hedits, hvalid⟩ := h
  obtain ⟨hallowed, hnone, hlimits⟩ := commitOpen_ok hopen
  have hnamed : (r.f 0 47 24 != (staged d).base || r.f 0 15 0 != (staged d).edits) = false := by rw [bne, bne, hbase, hedits]; rfl
  rw [needPatternOwner_ok howner, ok_bind, hallowed, ok_bind, param_ok (by rw [hsized, hbits]; rfl), ok_bind, hnone]
  simp only [Bool.false_eq_true, if_false, hnamed]
  rw [hlimits, ok_bind, Option.isNone_iff_eq_none.1 hvalid]
  rfl

theorem patternRevert_holds : effPatternRevert.Holds := by
  refine HostEffect.holds_of_hostCmd (fun r s => (rfl : exec _ s = execPatternRevert r s)) fun r s d _ h => ?_
  simp only [effPatternRevert, Bool.and_eq_true, and_assoc] at h
  obtain ⟨howner, hopen, hlen, hany⟩ := h
  obtain ⟨hallowed, hnone, hlimits⟩ := commitOpen_ok hopen
  obtain ⟨b, hb, hepochs⟩ := (Option.any_eq_true _ _).1 hany
  rw [needPatternOwner_ok howner, ok_bind, hallowed, ok_bind, param_ok hlen, ok_bind, hnone, hb]
  simp only [Bool.false_eq_true, if_false]
  rw [hlimits, ok_bind, need_ok hepochs, ok_bind]
  simp only [effPatternRevert, hb]
  rfl

/-- Settles O16, a clause a row: reads and edits leave all but the staging area as it is, STORE and REVERT begin the one commit. -/
theorem patternCommandsComplete : Obligations.PatternCommandsComplete :=
  ⟨patternRead_holds, patternWrite_holds, patternDiscard_holds, patternInfo_holds, patternStore_holds, patternRevert_holds⟩

end Sys2Proof.Machine
end

section
/-! PROOFS. Applet instructions that write rd alone: arithmetic and logic of registers and immediates (R656-R658). -/
namespace Sys2Proof.Machine

/-- An instruction whose body writes rd by f from the charged activation writes it by any v that f comes to. -/
theorem writesReg_of_toReg {row : Instr} {a : AppletRef} {i : AppletInstr} {cost : Nat} {rd : BitVec 4} {f v : Activation → Word}
    (hexec : ∀ s, exec row s = appletInstr a i cost (toReg a rd f) s) (hval : ∀ t, f { t with fuel := t.fuel - cost } = v t) :
    WritesReg row a i cost rd v := by
  intro s x t h hpc
  rw [hexec, appletInstr_atInstr h, toReg_charged hpc, hval]

theorem mul_eq_ofNat (v w : Word) : v * w = BitVec.ofNat 48 (v.toNat * w.toNat) := by
  rw [BitVec.ofNat_mul, BitVec.ofNat_toNat, BitVec.ofNat_toNat, BitVec.setWidth_eq, BitVec.setWidth_eq]

theorem divuW_eq (v w : Word) : divuW v w = if w = 0 then BitVec.allOnes 48 else BitVec.ofNat 48 (v.toNat / w.toNat) := by
  rw [divuW, BitVec.udiv_def]

theorem remuW_eq (v w : Word) : remuW v w = if w = 0 then v else BitVec.ofNat 48 (v.toNat % w.toNat) := by
  rw [remuW, BitVec.umod_def]

theorem b1_slt (v w : Word) : b1 (v.slt w) = if v.toInt < w.toInt then 1 else 0 := by
  simp only [b1, BitVec.slt, decide_eq_true_eq]

theorem b1_ult (v w : Word) : b1 (v.ult w) = if v.toNat < w.toNat then 1 else 0 := by
  simp only [b1, BitVec.ult, decide_eq_true_eq]

/-- Settles O39: each operation's word is its value modulo 2^48. -/
theorem appletRegisterArithmetic : Obligations.AppletRegisterArithmetic := by
  intro a rd ra rb
  refine ⟨?_, ?_, ?_, ?_, ?_, ?_, ?_, ?_, ?_, ?_, ?_, ?_, ?_, ?_⟩
  · exact writesReg_of_toReg (fun s => (rfl : exec _ s = execAdd a rd ra rb s)) fun t => rfl
  · exact writesReg_of_toReg (fun s => (rfl : exec _ s = execSub a rd ra rb s)) fun t => rfl
  · exact writesReg_of_toReg (fun s => (rfl : exec _ s = execAnd a rd ra rb s)) fun t => rfl
  · exact writesReg_of_toReg (fun s => (rfl : exec _ s = execOr a rd ra rb s)) fun t => rfl
  · exact writesReg_of_toReg (fun s => (rfl : exec _ s = execXor a rd ra rb s)) fun t => rfl
  · exact writesReg_of_toReg (fun s => (rfl : exec _ s = execShl a rd ra rb s)) fun t => shlW_eq _ _
  · exact writesReg_of_toReg (fun s => (rfl : exec _ s = execShr a rd ra rb s)) fun t => shrW_eq _ _
  · exact writesReg_of_toReg (fun s => (rfl : exec _ s = execSar a rd ra rb s)) fun t => sarW_eq _ _
  · exact writesReg_of_toReg (fun s => (rfl : exec _ s = execMul a rd ra rb s)) fun t => mul_eq_ofNat _ _
  · exact writesReg_of_toReg (fun s => (rfl : exec _ s = execMulhu a rd ra rb s)) fun t => rfl
  · exact writesReg_of_toReg (fun s => (rfl : exec _ s = execDivu a rd ra rb s)) fun t => divuW_eq _ _
  · exact writesReg_of_toReg (fun s => (rfl : exec _ s = execRemu a rd ra rb s)) fun t => remuW_eq _ _
  · exact writesReg_of_toReg (fun s => (rfl : exec _ s = execSlt a rd ra rb s)) fun t => b1_slt _ _
  · exact writesReg_of_toReg (fun s => (rfl : exec _ s = execSltu a rd ra rb s)) fun t => b1_ult _ _

theorem b1_slt_sext10 (w : Word) (imm : BitVec 10) : b1 (w.slt (sext10 imm)) = if w.toInt < imm.toInt then 1 else 0 := by
  rw [sext10_slt, b1]
  simp only [decide_eq_true_eq]

/-- LDX shifts rd up and puts its immediate below. -/
theorem shiftLeft_or_imm14 (w : Word) (imm : BitVec 14) : w <<< 14 ||| imm.setWidth 48 = BitVec.ofNat 48 (w.toNat * 2 ^ 14 + imm.toNat) := by
  apply BitVec.eq_of_toNat_eq
  have hshift : w.toNat * 2 ^ 14 % 2 ^ 48 = 2 ^ 14 * (w.toNat % 2 ^ 34) := by omega
  rw [BitVec.toNat_or, BitVec.toNat_shiftLeft, BitVec.toNat_setWidth_of_le (by decide), BitVec.toNat_ofNat, Nat.shiftLeft_eq,
    hshift, ← Nat.two_pow_add_eq_or_of_lt imm.isLt]
  omega

/-- Settles O40: the same, with the immediate extended as its instruction says. -/
theorem appletImmediateArithmetic : Obligations.AppletImmediateArithmetic := by
  intro a rd ra imm im14
  refine ⟨?_, ?_, ?_, ?_, ?_, ?_, ?_, ?_, ?_, ?_, ?_⟩
  · exact writesReg_of_toReg (fun s => (rfl : exec _ s = execAddi a rd ra imm s)) fun t => sext10_add _ _
  · exact writesReg_of_toReg (fun s => (rfl : exec _ s = execAndi a rd ra imm s)) fun t => congrArg (reg t ra &&& ·) (zext10_eq imm)
  · exact writesReg_of_toReg (fun s => (rfl : exec _ s = execOri a rd ra imm s)) fun t => congrArg (reg t ra ||| ·) (zext10_eq imm)
  · exact writesReg_of_toReg (fun s => (rfl : exec _ s = execXori a rd ra imm s)) fun t => congrArg (reg t ra ^^^ ·) (zext10_eq imm)
  · exact writesReg_of_toReg (fun s => (rfl : exec _ s = execShli a rd ra imm s)) fun t => shlW_eq _ _
  · exact writesReg_of_toReg (fun s => (rfl : exec _ s = execShri a rd ra imm s)) fun t => shrW_eq _ _
  · exact writesReg_of_toReg (fun s => (rfl : exec _ s = execSari a rd ra imm s)) fun t => sarW_eq _ _
  · exact writesReg_of_toReg (fun s => (rfl : exec _ s = execSlti a rd ra imm s)) fun t => b1_slt_sext10 _ _
  · exact writesReg_of_toReg (fun s => (rfl : exec _ s = execSltiu a rd ra imm s)) fun t => b1_ult _ _
  · exact writesReg_of_toReg (fun s => (rfl : exec _ s = execLdi a rd im14 s)) fun t => rfl
  · exact writesReg_of_toReg (fun s => (rfl : exec _ s = execLdx a rd im14 s)) fun t => shiftLeft_or_imm14 _ _

end Sys2Proof.Machine
end

section
/-! PROOFS. NOP, branches, jumps and calls (R656-R658). -/
namespace Sys2Proof.Machine

/-- An instruction that goes on to an index inside the code. -/
theorem goTo_charged {a : AppletRef} {x : Applet} {t u : Activation} {cost n : Nat} {d : Dev} (hin : n < x.code.length) :
    goTo a x n u (charged a cost t d) = actAfter a { u with pc := n } d := by
  rw [goTo_in hin, setAct_charged]

/-- A branch goes where its condition says, read from the registers, which the charge leaves as they were. -/
theorem movesPc_of_branch {row : Instr} {a : AppletRef} {i : AppletInstr} {ofs : Int} {c : Activation → Bool} {taken : Activation → Prop}
    [∀ t, Decidable (taken t)] (hexec : ∀ s, exec row s = appletInstr a i 1 (branch a ofs c) s)
    (hc : ∀ t, c { t with fuel := t.fuel - 1 } = true ↔ taken t) : MovesPc row a i (fun t => branchTo (taken t) ofs t) := by
  intro s x t h hin
  rw [hexec, appletInstr_atInstr h, branch]
  dsimp only
  rw [if_congr (hc t) rfl rfl]
  exact congrArg (fun d : Dev => Host.Outcome.next { s with dev := d }) (goTo_charged hin)

/-- A jump goes to its target, and links W15 when it is a call. -/
theorem executes_of_jump {row : Instr} {a : AppletRef} {i : AppletInstr} {link : Bool} {f pc : Activation → Nat}
    (hexec : ∀ s, exec row s = appletInstr a i 1 (jump a link f) s) (hf : ∀ t, f { t with fuel := t.fuel - 1 } = pc t) :
    Executes row a i 1 pc (fun t => if link then setAt t.regs 15 (BitVec.ofNat 48 (t.pc + 1)) else t.regs) := by
  intro s x t h hin
  rw [hexec, appletInstr_atInstr h, jump]
  dsimp only
  rw [hf, goTo_charged hin]
  cases link with
  | true => rfl
  | false => rfl

theorem low15_eq (w : Word) : fld w 14 0 = w.toNat % 32768 := by
  rw [fld, Nat.pow_zero, Nat.div_one]
  rfl

theorem not_slt_zero (w : Word) : (!w.slt 0) = true ↔ 0 ≤ w.toInt := by
  rw [Bool.not_eq_true', BitVec.slt, decide_eq_false_iff_not, not_lt]
  rfl

/-- Settles O42: NOP, the branches by their conditions, the jumps by their targets and links. -/
theorem appletControlInstructions : Obligations.AppletControlInstructions := by
  intro a rd ra o10 o14 target
  refine ⟨?_, ?_, ?_, ?_, ?_, ?_, ?_, ?_, ?_, ?_, ?_, ?_, ?_⟩
  · intro s x t h hin
    change execNop a s = _
    rw [execNop, appletInstr_atInstr h]
    exact congrArg (fun d : Dev => Host.Outcome.next { s with dev := d }) (goTo_charged hin)
  · exact movesPc_of_branch (fun s => (rfl : exec _ s = execBeqz a ra o14 s)) fun t => beq_iff_eq
  · exact movesPc_of_branch (fun s => (rfl : exec _ s = execBnez a ra o14 s)) fun t => bne_iff_ne
  · exact movesPc_of_branch (fun s => (rfl : exec _ s = execBltz a ra o14 s)) fun t => decide_eq_true_iff
  · exact movesPc_of_branch (fun s => (rfl : exec _ s = execBgez a ra o14 s)) fun t => not_slt_zero _
  · exact movesPc_of_branch (fun s => (rfl : exec _ s = execBeq a rd ra o10 s)) fun t => beq_iff_eq
  · exact movesPc_of_branch (fun s => (rfl : exec _ s = execBne a rd ra o10 s)) fun t => bne_iff_ne
  · exact movesPc_of_branch (fun s => (rfl : exec _ s = execBlt a rd ra o10 s)) fun t => decide_eq_true_iff
  · exact movesPc_of_branch (fun s => (rfl : exec _ s = execBltu a rd ra o10 s)) fun t => decide_eq_true_iff
  · exact executes_of_jump (fun s => (rfl : exec _ s = execJmp a target s)) fun t => rfl
  · exact executes_of_jump (fun s => (rfl : exec _ s = execJr a ra s)) fun t => low15_eq _
  · exact executes_of_jump (fun s => (rfl : exec _ s = execCall a target s)) fun t => rfl
  · exact executes_of_jump (fun s => (rfl : exec _ s = execCallr a ra s)) fun t => low15_eq _

end Sys2Proof.Machine
end

section
/-! PROOFS. TICK, FUEL, RAND, HALT, TRAP and SVC, and a RAND without its fuel (R656, R658-R661, R671, R680). -/
namespace Sys2Proof.Machine

/-- The random source does not see the charge of an instruction. -/
theorem draw_charged (a : AppletRef) (cost : Nat) (t : Activation) (d : Dev) :
    draw (charged a cost t d) = ((draw d).1, charged a cost t (draw d).2) := rfl

section SystemInstructions

variable {a : AppletRef} {rd : BitVec 4} {s : State} {x : Applet} {t : Activation}

theorem exec_tick (h : atInstr a (.tick rd) 1 x t s.dev) (hpc : t.pc + 1 < x.code.length) :
    exec (.tick a rd) s = .next { s with dev := actAfter a (ran t 1 (t.pc + 1) (setAt t.regs rd.toNat s.dev.time.tick)) s.dev } := by
  change execTick a rd s = _
  rw [execTick, appletInstr_atInstr h, toReg_charged hpc]
  rfl

theorem exec_rand (h : atInstr a (.rand rd) 4 x t s.dev) (hpc : t.pc + 1 < x.code.length) :
    exec (.rand a rd) s = .next { s with
      dev := actAfter a (ran t 4 (t.pc + 1) (setAt t.regs rd.toNat (draw s.dev).1)) (draw s.dev).2 } := by
  change execRand a rd s = _
  rw [execRand, appletInstr_atInstr h, if_pos hpc, draw_charged]
  rw [toReg_charged hpc]

/-- The four units of a RAND are not there: nothing is charged (R656, log 35). -/
theorem exec_rand_fuelOut (hruns : executing s.dev a = some (x, t)) (hcode : x.code[t.pc]? = some (encodeApplet (.rand rd)))
    (hfuel : t.fuel < 4) : exec (.rand a rd) s = .next { s with dev := endActivation a End.fuelOut 0 0 [] s.dev } := by
  change execRand a rd s = _
  simp only [execRand, appletInstr, lift, hruns, hcode, ne_eq, not_true_eq_false, if_false, if_pos hfuel]

theorem exec_halt (h : atInstr a .halt 1 x t s.dev) (hlen : (wd t.regs 2).toNat ≤ 4096)
    (hdata : inData x (wd t.regs 1) (wd t.regs 2).toNat = true) :
    exec (.halt a) s = .next { s with
      dev := endActivation a End.halt 0 (wd t.regs 2).toNat (bytesWords (dataBytes x (wd t.regs 1) (wd t.regs 2).toNat))
        (charged a 1 t s.dev) } := by
  change execHalt a s = _
  rw [execHalt, appletInstr_atInstr h]
  dsimp only
  rw [decide_eq_true hlen, hdata]
  rfl

theorem exec_trap (imm : BitVec 14) (h : atInstr a (.trap imm) 1 x t s.dev) :
    exec (.trap a imm) s = .next { s with dev := endActivation a End.trap imm.toNat 0 [] (charged a 1 t s.dev) } := by
  change execTrap a imm s = _
  rw [execTrap, appletInstr_atInstr h]

/-- What a service call that passes its checks makes of the charged device: the activation waits, and the command goes to SCH (R660). -/
def submitted (a : AppletRef) (x : Applet) (t : Activation) (opcode : BitVec 16) (d : Dev) : Dev :=
  serviceAccepted (serviceReq a x { t with fuel := t.fuel - 16 } opcode d) (wd t.regs 5) (chargeApplet a
    (traceT (BitVec.ofNat 8 (0x10 + x.cluster)) 212 a.tenant (word a.tenant.toNat) (word opcode.toNat)
      (setAct a { t with
        fuel := t.fuel - 16, pc := t.pc + 1
        call := some { id := d.nextId, buffer := (wd t.regs 3).toNat, capacity := (wd t.regs 4).toNat } } { d with nextId := d.nextId + 1 })))

/-- With its block and its buffer inside data memory SVC comes to its fall-through, which the code has or has not. -/
theorem exec_svc {opcode : BitVec 16} (h : atInstr a (.svc opcode) 16 x t s.dev)
    (hblock : inData x (wd t.regs 1) (wd t.regs 2).toNat = true) (hbuffer : inData x (wd t.regs 3) (wd t.regs 4).toNat = true) :
    exec (.svc a opcode) s = .next { s with
      dev := if x.code.length ≤ t.pc + 1 then endActivation a End.codeBounds 0 0 [] (charged a 16 t s.dev)
        else submitted a x t opcode (charged a 16 t s.dev) } := by
  change execSvc a opcode s = _
  rw [execSvc, appletInstr_atInstr h]
  dsimp only
  rw [hblock, hbuffer]
  rfl

end SystemInstructions

/-- Settles O43, an instruction a clause. -/
theorem appletSystemInstructions : Obligations.AppletSystemInstructions := by
  intro a rd imm opcode
  refine ⟨fun _ _ _ => exec_tick, writesReg_of_toReg (fun s => (rfl : exec _ s = execFuel a rd s)) fun _ => rfl, fun _ _ _ => exec_rand,
    fun _ _ _ h hlen hdata => exec_halt h hlen (decide_eq_true hdata), fun _ _ _ => exec_trap imm, ?_, fun _ _ _ => exec_rand_fuelOut⟩
  intro s x t h hpc hblock hbuffer
  rw [exec_svc h hblock hbuffer, if_neg (Nat.not_le.2 hpc)]
  rfl

end Sys2Proof.Machine
end

section
/-! PROOFS. Instructions that leave the code or data memory: the charge, and then the end of the activation (R656, R658, R659, R680). -/
namespace Sys2Proof.Machine

/-- An instruction faults when its body comes to the end of the activation, on whatever device its charge left. -/
theorem faults_of_body {row : Instr} {a : AppletRef} {i : AppletInstr} {cost code : Nat} {ok : Applet → Activation → Prop}
    {body : Applet → Activation → Dev → Dev} (hexec : ∀ s, exec row s = appletInstr a i cost body s)
    (hbody : ∀ x t d, ok x t → body x { t with fuel := t.fuel - cost } d = endActivation a code 0 0 [] d) : faults row a i cost code ok := by
  intro s x t h hok
  rw [hexec, appletInstr_atInstr h, hbody _ _ _ hok]

section FallThrough

variable {row : Instr} {a : AppletRef} {i : AppletInstr} {cost : Nat}

/-- A register instruction that is the last of the code. -/
theorem faults_of_toReg {rd : BitVec 4} {f : Activation → Word} (hexec : ∀ s, exec row s = appletInstr a i cost (toReg a rd f) s) :
    faults row a i cost End.codeBounds atLast :=
  faults_of_body hexec fun _ _ _ hlast => goTo_out hlast

theorem faults_of_branch {ofs : Int} {c : Activation → Bool} {taken : Activation → Prop} [∀ t, Decidable (taken t)]
    (hexec : ∀ s, exec row s = appletInstr a i 1 (branch a ofs c) s) (hc : ∀ t, c { t with fuel := t.fuel - 1 } = true ↔ taken t) :
    faults row a i 1 End.codeBounds (fun x t => x.code.length ≤ branchTo (taken t) ofs t) := by
  refine faults_of_body hexec fun x t d hout => ?_
  rw [branch, if_congr (hc t) rfl rfl]
  exact goTo_out hout

theorem faults_of_jump {link : Bool} {f pc : Activation → Nat} (hexec : ∀ s, exec row s = appletInstr a i 1 (jump a link f) s)
    (hf : ∀ t, f { t with fuel := t.fuel - 1 } = pc t) : faults row a i 1 End.codeBounds (fun x t => x.code.length ≤ pc t) := by
  refine faults_of_body hexec fun x t d hout => ?_
  rw [jump, hf]
  exact goTo_out hout

/-- A load at the end of the code, from inside data memory. -/
theorem faults_of_load {rd ra : BitVec 4} {imm : BitVec 10} {size : Applet → Nat} {f : Applet → Nat → Word}
    (hexec : ∀ s, exec row s = appletInstr a i 1 (fun x t d => if (reg t ra + sext10 imm).toNat < size x
      then toReg a rd (fun _ => f x (reg t ra + sext10 imm).toNat) x t d else fault a End.dataBounds d) s) :
    faults row a i 1 End.codeBounds (fun x t => atLast x t ∧ memAddr t ra imm < size x)
      ∧ faults row a i 1 End.dataBounds (fun x t => size x ≤ memAddr t ra imm) := by
  constructor
  · refine faults_of_body hexec fun x t d hok => ?_
    rw [charged_addr, if_pos hok.2]
    exact goTo_out hok.1
  · refine faults_of_body hexec fun x t d hout => ?_
    rw [charged_addr, if_neg (Nat.not_lt.2 hout)]
    rfl

/-- A store at the end of the code, into data memory, and one past data memory. -/
theorem faults_of_store {ra : BitVec 4} {imm : BitVec 10} {size : Applet → Nat} {f : Applet → Nat → Activation → List Word}
    (hexec : ∀ s, exec row s = appletInstr a i 1 (fun x t d => if (reg t ra + sext10 imm).toNat < size x
      then toData a (fun x' t' => f x' (reg t ra + sext10 imm).toNat t') x t d else fault a End.dataBounds d) s) :
    faults row a i 1 End.codeBounds (fun x t => atLast x t ∧ memAddr t ra imm < size x)
      ∧ faults row a i 1 End.dataBounds (fun x t => size x ≤ memAddr t ra imm) := by
  constructor
  · refine faults_of_body hexec fun x t d hok => ?_
    rw [charged_addr, if_pos hok.2, toData]
    exact if_neg (Nat.not_lt.2 hok.1)
  · refine faults_of_body hexec fun x t d hout => ?_
    rw [charged_addr, if_neg (Nat.not_lt.2 hout)]
    rfl

end FallThrough

section LoadsAndStores

variable (a : AppletRef) (rd ra : BitVec 4) (imm : BitVec 10)

theorem ld_faults : faults (.ld a rd ra imm) a (.ld rd ra imm) 1 End.codeBounds (fun x t => atLast x t ∧ memAddr t ra imm < x.data.length)
    ∧ faults (.ld a rd ra imm) a (.ld rd ra imm) 1 End.dataBounds (fun x t => x.data.length ≤ memAddr t ra imm) :=
  faults_of_load (size := fun x => x.data.length) (f := fun x n => wd x.data n) fun s => (rfl : exec _ s = execLd a rd ra imm s)

theorem st_faults : faults (.st a rd ra imm) a (.st rd ra imm) 1 End.codeBounds (fun x t => atLast x t ∧ memAddr t ra imm < x.data.length)
    ∧ faults (.st a rd ra imm) a (.st rd ra imm) 1 End.dataBounds (fun x t => x.data.length ≤ memAddr t ra imm) :=
  faults_of_store (size := fun x => x.data.length) (f := fun x n t => setAt x.data n (reg t rd))
    fun s => (rfl : exec _ s = execSt a rd ra imm s)

theorem ldb_faults :
    faults (.ldb a rd ra imm) a (.ldb rd ra imm) 1 End.codeBounds (fun x t => atLast x t ∧ memAddr t ra imm < 6 * x.data.length)
    ∧ faults (.ldb a rd ra imm) a (.ldb rd ra imm) 1 End.dataBounds (fun x t => 6 * x.data.length ≤ memAddr t ra imm) :=
  faults_of_load (size := fun x => 6 * x.data.length) (f := fun x n => (getByte x.data n).setWidth 48)
    fun s => (rfl : exec _ s = execLdb a rd ra imm s)

theorem stb_faults :
    faults (.stb a rd ra imm) a (.stb rd ra imm) 1 End.codeBounds (fun x t => atLast x t ∧ memAddr t ra imm < 6 * x.data.length)
    ∧ faults (.stb a rd ra imm) a (.stb rd ra imm) 1 End.dataBounds (fun x t => 6 * x.data.length ≤ memAddr t ra imm) :=
  faults_of_store (size := fun x => 6 * x.data.length) (f := fun x n t => putBytes x.data n [(reg t rd).setWidth 8])
    fun s => (rfl : exec _ s = execStb a rd ra imm s)

end LoadsAndStores

/-- SVC at the end of the code, with its block and its buffer inside data memory. -/
theorem svc_faults (a : AppletRef) (opcode : BitVec 16) : faults (.svc a opcode) a (.svc opcode) 16 End.codeBounds (fun x t => atLast x t
    ∧ inData x (wd t.regs 1) (wd t.regs 2).toNat = true ∧ inData x (wd t.regs 3) (wd t.regs 4).toNat = true) := by
  intro s x t h hok
  obtain ⟨hlast, hblock, hbuffer⟩ := hok
  rw [exec_svc h hblock hbuffer, if_pos (by exact hlast)]

/-- Settles O54: jumps and branches by where they would go, everything else by its fall-through, loads and stores also by their address. -/
theorem appletBoundsFaults : Obligations.AppletBoundsFaults := by
  intro a rd ra rb imm im14 target opcode
  refine ⟨faults_of_jump (fun s => (rfl : exec _ s = execJmp a target s)) fun t => rfl,
    faults_of_jump (fun s => (rfl : exec _ s = execCall a target s)) fun t => rfl,
    faults_of_jump (fun s => (rfl : exec _ s = execJr a ra s)) fun t => low15_eq _,
    faults_of_jump (fun s => (rfl : exec _ s = execCallr a ra s)) fun t => low15_eq _,
    faults_of_branch (fun s => (rfl : exec _ s = execBeqz a ra im14 s)) fun t => beq_iff_eq,
    faults_of_branch (fun s => (rfl : exec _ s = execBnez a ra im14 s)) fun t => bne_iff_ne,
    faults_of_branch (fun s => (rfl : exec _ s = execBltz a ra im14 s)) fun t => decide_eq_true_iff,
    faults_of_branch (fun s => (rfl : exec _ s = execBgez a ra im14 s)) fun t => not_slt_zero _,
    faults_of_branch (fun s => (rfl : exec _ s = execBeq a rd ra imm s)) fun t => beq_iff_eq,
    faults_of_branch (fun s => (rfl : exec _ s = execBne a rd ra imm s)) fun t => bne_iff_ne,
    faults_of_branch (fun s => (rfl : exec _ s = execBlt a rd ra imm s)) fun t => decide_eq_true_iff,
    faults_of_branch (fun s => (rfl : exec _ s = execBltu a rd ra imm s)) fun t => decide_eq_true_iff,
    ?_,
    faults_of_toReg (fun s => (rfl : exec _ s = execMul a rd ra rb s)),
    faults_of_toReg (fun s => (rfl : exec _ s = execMulhu a rd ra rb s)),
    faults_of_toReg (fun s => (rfl : exec _ s = execDivu a rd ra rb s)),
    faults_of_toReg (fun s => (rfl : exec _ s = execRemu a rd ra rb s)),
    faults_of_body (fun s => (rfl : exec _ s = execRand a rd s)) fun x t d hlast => if_neg (Nat.not_lt.2 hlast), svc_faults a opcode,
    (ld_faults a rd ra imm).1, (st_faults a rd ra imm).1, (ldb_faults a rd ra imm).1, (stb_faults a rd ra imm).1,
    (ld_faults a rd ra imm).2, (st_faults a rd ra imm).2, (ldb_faults a rd ra imm).2, (stb_faults a rd ra imm).2⟩
  · simp only [List.forall_mem_cons]
    exact ⟨faults_of_body (fun s => (rfl : exec _ s = execNop a s)) fun _ _ _ hlast => goTo_out hlast,
      faults_of_toReg (fun s => (rfl : exec _ s = execAdd a rd ra rb s)),
      faults_of_toReg (fun s => (rfl : exec _ s = execSub a rd ra rb s)),
      faults_of_toReg (fun s => (rfl : exec _ s = execAnd a rd ra rb s)),
      faults_of_toReg (fun s => (rfl : exec _ s = execOr a rd ra rb s)),
      faults_of_toReg (fun s => (rfl : exec _ s = execXor a rd ra rb s)),
      faults_of_toReg (fun s => (rfl : exec _ s = execShl a rd ra rb s)),
      faults_of_toReg (fun s => (rfl : exec _ s = execShr a rd ra rb s)),
      faults_of_toReg (fun s => (rfl : exec _ s = execSar a rd ra rb s)),
      faults_of_toReg (fun s => (rfl : exec _ s = execSlt a rd ra rb s)),
      faults_of_toReg (fun s => (rfl : exec _ s = execSltu a rd ra rb s)),
      faults_of_toReg (fun s => (rfl : exec _ s = execAddi a rd ra imm s)),
      faults_of_toReg (fun s => (rfl : exec _ s = execAndi a rd ra imm s)),
      faults_of_toReg (fun s => (rfl : exec _ s = execOri a rd ra imm s)),
      faults_of_toReg (fun s => (rfl : exec _ s = execXori a rd ra imm s)),
      faults_of_toReg (fun s => (rfl : exec _ s = execShli a rd ra imm s)),
      faults_of_toReg (fun s => (rfl : exec _ s = execShri a rd ra imm s)),
      faults_of_toReg (fun s => (rfl : exec _ s = execSari a rd ra imm s)),
      faults_of_toReg (fun s => (rfl : exec _ s = execSlti a rd ra imm s)),
      faults_of_toReg (fun s => (rfl : exec _ s = execSltiu a rd ra imm s)),
      faults_of_toReg (fun s => (rfl : exec _ s = execLdi a rd im14 s)),
      faults_of_toReg (fun s => (rfl : exec _ s = execLdx a rd im14 s)),
      faults_of_body (fun s => (rfl : exec _ s = execTick a rd s)) fun _ _ _ hlast => goTo_out hlast,
      faults_of_toReg (fun s => (rfl : exec _ s = execFuel a rd s)),
      List.forall_mem_nil _⟩

end Sys2Proof.Machine
end

section
/-! PROOFS. Class 0x10: health and log over management, address, power, fences, bundle push and restart (R607, R619-R626, R651). -/
namespace Sys2Proof.Machine

theorem needAuth_ok {r : Req} (h : fromMgmt r = true) : needAuth r = .ok () := need_ok h

theorem mgmtInfo_holds : effMgmtInfo.Holds := by
  refine HostEffect.holds_of_hostCmd (fun r s => (rfl : exec _ s = execMgmtInfo r s)) fun r s d _ h => ?_
  rw [ok_bind, param_ok (by exact h)]
  rfl

theorem mgmtSensors_holds : effMgmtSensors.Holds := by
  refine HostEffect.holds_of_hostCmd (fun r s => (rfl : exec _ s = execMgmtSensors r s)) fun r s d _ h => ?_
  rw [ok_bind, param_ok (by exact h)]
  rfl

theorem mgmtHealthRead_holds : effMgmtHealthRead.Holds := by
  refine HostEffect.holds_of_hostCmd (fun r s => (rfl : exec _ s = execMgmtHealthRead r s)) fun r s d _ h => ?_
  rw [ok_bind]
  dsimp only
  rw [param_ok (by exact h)]
  rfl

theorem mgmtLogRead_holds : effMgmtLogRead.Holds := by
  refine HostEffect.holds_of_hostCmd (fun r s => (rfl : exec _ s = execMgmtLogRead r s)) fun r s d _ h => ?_
  rw [ok_bind, param_ok (by exact h)]
  rfl

theorem mgmtAddress_holds : effMgmtAddress.Holds := by
  refine HostEffect.holds_of_hostCmd (fun r s => (rfl : exec _ s = execMgmtAddress r s)) fun r s d _ h => ?_
  simp only [effMgmtAddress, Bool.and_eq_true, and_assoc] at h
  obtain ⟨hauth, hsized, hbits, hmin, hmax⟩ := h
  rw [needAuth_ok hauth, ok_bind, param_ok (by rw [hsized, hbits, hmin, hmax]; rfl)]
  rfl

theorem mgmtPower_holds : effMgmtPower.Holds := by
  refine HostEffect.holds_of_restartCmd (fun r s => (rfl : exec _ s = execMgmtPower r s)) fun r s d _ h => ?_
  simp only [effMgmtPower, Bool.and_eq_true, and_assoc] at h
  obtain ⟨hauth, hsized, hbits, hstate⟩ := h
  rw [needAuth_ok hauth, ok_bind, param_ok (by rw [hsized, hbits, hstate]; rfl)]
  rfl

theorem mgmtFence_holds : effMgmtFence.Holds := by
  refine HostEffect.holds_of_hostCmd (fun r s => (rfl : exec _ s = execMgmtFence r s)) fun r s d _ h => ?_
  simp only [effMgmtFence, Bool.and_eq_true, and_assoc] at h
  obtain ⟨hauth, hsized, hbits, hunit⟩ := h
  rw [needAuth_ok hauth, ok_bind, param_ok (by rw [hsized, hbits, hunit]; rfl)]
  rfl

theorem mgmtUnfence_holds (passed : Bool) : (effMgmtUnfence passed).Holds := by
  refine HostEffect.holds_of_hostCmd (fun r s => (rfl : exec _ s = execMgmtUnfence r passed s)) fun r s d _ h => ?_
  simp only [effMgmtUnfence, Bool.and_eq_true, and_assoc] at h
  obtain ⟨hauth, hsized, hbits, hunit, hfuse⟩ := h
  rw [needAuth_ok hauth, ok_bind]
  dsimp only
  rw [param_ok (by rw [hsized, hbits, hunit]; rfl), ok_bind, need_ok hfuse, ok_bind]
  cases passed with
  | true => rfl
  | false => rfl

/-- A chunk that does not end its bundle is laid into the push, as BOOT_PUSH lays it (R622). -/
theorem bundlePush_takes : BundlePushTakes := by
  intro r s hheld hop hrom hpower hwaits hform hroom
  simp only [Bool.and_eq_true, Bool.not_eq_true', decide_eq_true_eq, and_assoc] at hform
  obtain ⟨hsized, hbits, hmin, hmax, hmore⟩ := hform
  have hserved : r ∈ s.dev.cmds ∧ r.opcode = 0x1030 ∧ (!romHalted s.dev) = true := ⟨hheld, hop, by rw [hrom]; rfl⟩
  have hgoes : ¬ s.dev.power.pfn = true := by rw [hpower]; decide
  have hsource : ¬ (s.dev.boot.progress != 0x05 && s.dev.boot.progress != 0x0C) = true := by
    obtain hhost | hrecovery := hwaits
    · rw [hhost]; decide
    · rw [hrecovery]; decide
  have hpayload : ¬ (!(r.sized (r.words.length - 1 + 1) && onlyBits (r.w 0) [(47, 47), (31, 0)] && decide (1 ≤ r.words.length - 1)
      && decide (r.words.length - 1 ≤ 248))) = true := by
    rw [Nat.sub_add_cancel (by omega), hsized, hbits, decide_eq_true (by omega), decide_eq_true (by omega)]
    decide
  refine congrArg (fun d : Dev => Host.Outcome.next { s with dev := d }) ((if_pos hserved).trans ((if_neg hgoes).trans
    ((if_neg hsource).trans ((if_neg hpayload).trans ?_))))
  change pushEnded r _ (pushChunk _ (r.w 0) (r.words.drop 1) (taken r s.dev)) = _
  rw [pushChunk_laid (d := taken r s.dev) hmore hroom]
  rfl

theorem mgmtRestart_holds : effMgmtRestart.Holds := by
  refine HostEffect.holds_of_restartCmd (fun r s => (rfl : exec _ s = execMgmtRestart r s)) fun r s d _ h => ?_
  simp only [effMgmtRestart, Bool.and_eq_true] at h
  obtain ⟨hauth, hsized⟩ := h
  rw [needAuth_ok hauth, ok_bind, param_ok hsized]
  rfl

/-- Settles O20, a clause a row: the reads need their form alone, every other row an authenticated packet. -/
theorem managementCommandsComplete : Obligations.ManagementCommandsComplete :=
  ⟨mgmtInfo_holds, mgmtSensors_holds, mgmtHealthRead_holds, mgmtLogRead_holds, mgmtPower_holds, mgmtAddress_holds, mgmtFence_holds,
    mgmtUnfence_holds, bundlePush_takes, mgmtRestart_holds⟩

end Sys2Proof.Machine
end

section
/-! PROOFS. Succession, incoming role, and what ends one (R638, R642-R648, R650). -/
namespace Sys2Proof.Machine

theorem needIncoming_ok {d : Dev} (h : (d.succ.state == 2) = true) : needIncoming d = .ok () := need_ok h

/-- No draw touches what the device says of itself. -/
@[simp] theorem drawBytes_lifecycle (n : Nat) (d : Dev) : (drawBytes n d).2.lifecycle = d.lifecycle := by rw [drawBytes_spends]; rfl

@[simp] theorem drawBytes_orderByte (n : Nat) (d : Dev) : (drawBytes n d).2.orderByte = d.orderByte := by rw [drawBytes_spends]; rfl

/-- Bits n down to 0 alone are those of a number below 2^(n + 1). -/
theorem onlyBits_low_iff {w : Word} {n : Nat} (hn : n < 48) : onlyBits w [(n, 0)] = true ↔ w.toNat < 2 ^ (n + 1) := by
  have hwidth : 2 ^ (n + 1) ≤ 2 ^ 48 := Nat.pow_le_pow_right (by decide) hn
  have hlow : w.toNat % 2 ^ (n + 1) < 2 ^ (n + 1) := Nat.mod_lt _ (by positivity)
  have hfield : (mkWord [(n, 0, fld w n 0)]).toNat = w.toNat % 2 ^ (n + 1) := by
    rw [mkWord_single_toNat, fld, Nat.sub_zero, Nat.pow_zero, Nat.div_one, Nat.mul_one, Nat.mod_mod, Nat.mod_eq_of_lt (by omega)]
  rw [onlyBits, List.map_singleton, beq_iff_eq, ← BitVec.toNat_inj, hfield]
  exact ⟨fun h => h ▸ hlow, fun h => (Nat.mod_eq_of_lt h).symm⟩

/-- The draws and the signature of an offer are split one by one and stay unevaluated; none of them touches what the offer says of the
device. -/
theorem succOffer_holds : effSuccOffer.Holds := by
  refine HostEffect.holds_of_hostCmd (fun r s => (rfl : exec _ s = execSuccOffer r s)) fun r s d _ h => ?_
  simp only [effSuccOffer, Bool.and_eq_true, and_assoc] at h
  obtain ⟨hadmin, hfield, hidentity, hsized, hrole, hover, hfresh, hsigner, hidle, hsome⟩ := h
  obtain ⟨cert, hcert⟩ := Option.isSome_iff_exists.1 hsome
  have hstate : d.lifecycle.code = 3 := by rw [eq_of_beq hfield]; rfl
  have hsent : cert = d.att.cert0.getD [] := by rw [hcert]; rfl
  have hserial : (drawBytes 64 (drawBytes 56 d).2).2.serial = d.serial := by rw [drawBytes_serial, drawBytes_serial]
  have horder : (drawBytes 64 (drawBytes 56 d).2).2.orderByte = d.orderByte := by rw [drawBytes_orderByte, drawBytes_orderByte]
  have hcode : (drawBytes 64 (drawBytes 56 d).2).2.lifecycle.code = 3 := by rw [drawBytes_lifecycle, drawBytes_lifecycle, hstate]
  rw [byAdmin_ok hadmin, ok_bind, needField_ok hfield, ok_bind, need_ok hidentity, ok_bind, param_ok hsized, ok_bind, need_ok hrole, ok_bind,
    needNoHandover, need_ok hover, ok_bind, need_ok hfresh, ok_bind, needSigner_ok hsigner, ok_bind, hcert]
  change outcome r s (if (!engineIdle d) = true then _ else _) = _
  rw [hidle, if_neg (by decide)]
  split
  next b d1 hdraw =>
  obtain ⟨rfl, rfl⟩ := Prod.ext_iff.1 hdraw
  split
  next seed d2 hdraw2 =>
  obtain ⟨rfl, rfl⟩ := Prod.ext_iff.1 hdraw2
  rw [hserial, horder, hcode]
  extract_lets eph offer body
  split
  next sig d3 hsign =>
  obtain ⟨rfl, rfl⟩ := Prod.ext_iff.1 hsign
  subst body offer eph
  rw [hsent]
  rfl

/-- SUCC_RECEIVE's acknowledgement of a stream that opened to x: its pending copy, and the signed words (R638). -/
def acknowledges (r : Req) (x : List Word × List Byte × List Byte × List Byte) (d : Dev) (s : State) : Out :=
  let c := sealPending x.1 x.2.1 d
  let body := [formatOne] ++ d.serial ++ d.succ.peer ++ bytesWords x.2.1
  let sig := signBlock (d.att.key.getD {}) (tagS 0x41) body c.2
  answers r (body ++ sig.1) { sig.2 with succ := { sig.2.succ with receive := [], pending := some c.1, kt := x.2.2.1, peerKey := x.2.2.2 } } s

/-- The words of a part that comes in order (R638). -/
theorem receive_inOrder {r : Req} {d : Dev} (horder : (r.f 0 23 0 == 0 || r.f 0 23 0 == d.succ.receive.length) = true)
    (hroom : decide (r.f 0 23 0 + (r.words.length - 1) ≤ receiveLimit) = true) :
    (r.f 0 23 0 == (if r.f 0 23 0 = 0 then [] else d.succ.receive).length
      && decide (((if r.f 0 23 0 = 0 then [] else d.succ.receive) ++ r.words.drop 1).length ≤ receiveLimit)) = true := by
  have hstart : r.f 0 23 0 = (if r.f 0 23 0 = 0 then [] else d.succ.receive).length := by
    split
    next hfirst => exact hfirst
    next hlater => simpa [hlater] using horder
  rw [Bool.and_eq_true, beq_iff_eq, List.length_append, ← hstart, List.length_drop]
  exact ⟨rfl, hroom⟩

theorem succReceive_holds : effSuccReceive.Holds := by
  refine HostEffect.holds_of_hostCmd (fun r s => (rfl : exec _ s = execSuccReceive r s)) fun r s d _ h => ?_
  simp only [effSuccReceive, Bool.and_eq_true, and_assoc] at h
  obtain ⟨hadmin, hrole, hsized, hmin, hbits, hnone, horder, hroom⟩ := h
  have hoffset : (r.w 0).toNat < 2 ^ 24 := (onlyBits_low_iff (by decide)).1 hbits
  have hmore : bitOf (r.w 0) 24 = false := by rw [bitOf, Nat.div_eq_of_lt hoffset]; rfl
  have hflags : onlyBits (r.w 0) [(24, 0)] = true := (onlyBits_low_iff (by decide)).2 (by omega)
  rw [byAdmin_ok hadmin, ok_bind, needIncoming_ok hrole, ok_bind, param_ok (by rw [hsized, hmin, hflags]; rfl), ok_bind, need_ok hnone, ok_bind]
  extract_lets old ws
  rw [param_ok (by exact receive_inOrder horder hroom), ok_bind, hmore]
  rfl

/-- Sealing a pending copy draws its IV, and leaves the rest of the device. -/
@[simp] theorem sealPending_serial (plain : List Word) (digest : List Byte) (d : Dev) : (sealPending plain digest d).2.serial = d.serial :=
  drawBytes_serial 12 d

@[simp] theorem sealPending_succ (plain : List Word) (digest : List Byte) (d : Dev) : (sealPending plain digest d).2.succ = d.succ := by
  change (drawBytes 12 d).2.succ = d.succ
  rw [drawBytes_spends]
  rfl

theorem receiveLast_opened {r : Req} {d : Dev} {x : List Word × List Byte × List Byte × List Byte} (s : State)
    (h : openPackage d ((if r.f 0 23 0 = 0 then [] else d.succ.receive) ++ r.words.drop 1) = some x) :
    effSuccReceiveLast.out r d s = acknowledges r x d s := by
  simp only [effSuccReceiveLast, h]
  rfl

theorem receiveLast_dropped {r : Req} {d : Dev} (s : State)
    (h : openPackage d ((if r.f 0 23 0 = 0 then [] else d.succ.receive) ++ r.words.drop 1) = none) :
    effSuccReceiveLast.out r d s = ends St.authFail r [] 0 { d with succ := { d.succ with receive := [] } } s := by
  simp only [effSuccReceiveLast, h]

/-- Whether the stream opens decides between the acknowledgement and AUTH_FAIL (R638). -/
theorem succReceiveLast_holds : effSuccReceiveLast.Holds := by
  refine HostEffect.holds_of_hostCmd (fun r s => (rfl : exec _ s = execSuccReceive r s)) fun r s d _ h => ?_
  simp only [effSuccReceiveLast, Bool.and_eq_true, and_assoc] at h
  obtain ⟨hadmin, hrole, hsized, hmin, hbits, hlast, hnone, horder, hroom, hsigner, hidle, hbase⟩ := h
  have hany : anyEngine d = true := by
    simp only [signerReady, Bool.and_eq_true] at hsigner
    exact hsigner.1.1
  rw [byAdmin_ok hadmin, ok_bind, needIncoming_ok hrole, ok_bind, param_ok (by rw [hsized, hmin, hbits]; rfl), ok_bind, need_ok hnone, ok_bind]
  extract_lets old ws
  rw [param_ok (by exact receive_inOrder horder hroom), ok_bind, hlast, if_neg (by decide), needSigner_ok hsigner, ok_bind, need_ok hbase,
    ok_bind, untilEngine_idle hany hidle]
  split
  next hopen =>
    rw [receiveLast_dropped s hopen]
    rfl
  next plain digest kt key hopen =>
    rw [receiveLast_opened s hopen]
    split
    next c d1 hseal =>
    obtain ⟨rfl, rfl⟩ := Prod.ext_iff.1 hseal
    rw [sealPending_serial, sealPending_succ]
    extract_lets body
    split
    next sig d2 hsign =>
    obtain ⟨rfl, rfl⟩ := Prod.ext_iff.1 hsign
    subst body
    rfl

/-- The pending copy of a device that can read it. -/
theorem pending_opens {d : Dev} (h : d.succ.pending.any (fun c => (openPending d c).isOk) = true) :
    ∃ c p, d.succ.pending = some c ∧ openPending d c = .ok p := by
  obtain ⟨c, hc, hopens⟩ := (Option.any_eq_true _ _).1 h
  obtain ⟨p, hp⟩ := eq_ok_of_isOk hopens
  exact ⟨c, p, hc, hp⟩

theorem settleOutcome_authFail (r : Req) (s : State) : settleOutcome r s (rej St.authFail) = refused St.authFail r (taken r s.dev) s := rfl

/-- A block that is the peer's, for this device and this package, decides between the activation and AUTH_FAIL (R642). -/
theorem succActivate_holds : effSuccActivate.Holds := by
  refine HostEffect.holds_of_settleCmd (fun r s => (rfl : exec _ s = execSuccActivate r s)) fun r s d hd h => ?_
  simp only [effSuccActivate, Bool.and_eq_true, and_assoc] at h
  obtain ⟨hadmin, hrole, hsized, hany, hidle, hpending⟩ := h
  obtain ⟨c, p, hc, hp⟩ := pending_opens hpending
  rw [byAdmin_ok hadmin, ok_bind, needIncoming_ok hrole, ok_bind, param_ok hsized, ok_bind, hc]
  dsimp only
  rw [untilEngine_idle hany hidle]
  simp only [effSuccActivate, hc, Option.getD_some, hp]
  split
  next hgood =>
    rw [need_ok hgood, ok_bind, ok_bind]
    rfl
  next hbad => rw [need_bind_false (Bool.eq_false_iff.2 hbad), settleOutcome_authFail, hd]

theorem succRelease_holds : effSuccRelease.Holds := by
  refine HostEffect.holds_of_settleCmd (fun r s => (rfl : exec _ s = execSuccRelease r s)) fun r s d hd h => ?_
  simp only [effSuccRelease, Bool.and_eq_true, and_assoc] at h
  obtain ⟨hadmin, hrole, hsized, hany, hidle, hpending⟩ := h
  obtain ⟨c, p, hc, hp⟩ := pending_opens hpending
  rw [byAdmin_ok hadmin, ok_bind, needIncoming_ok hrole, ok_bind, param_ok hsized, ok_bind, hc]
  dsimp only
  rw [untilEngine_idle hany hidle]
  simp only [effSuccRelease, hc, Option.getD_some, hp, orElse_eq rfl]
  rw [ok_bind]
  split
  next hgood =>
    rw [need_ok hgood, ok_bind]
    rfl
  next hbad => rw [need_bind_false (Bool.eq_false_iff.2 hbad), settleOutcome_authFail, hd]

theorem succAbort_holds : effSuccAbort.Holds := by
  refine HostEffect.holds_of_settleCmd (fun r s => (rfl : exec _ s = execSuccAbort r s)) fun r s d _ h => ?_
  simp only [effSuccAbort, Bool.and_eq_true] at h
  obtain ⟨⟨hadmin, hrole⟩, hlen⟩ := h
  rw [byAdmin_ok hadmin, ok_bind, need_ok hrole, ok_bind, param_ok hlen]
  rfl

theorem succClose_holds : effSuccClose.Holds := by
  refine HostEffect.holds_of_hostCmd (fun r s => (rfl : exec _ s = execSuccClose r s)) fun r s d _ h => ?_
  simp only [effSuccClose, Bool.and_eq_true, and_assoc] at h
  obtain ⟨hadmin, hlive, hrole, hlen⟩ := h
  rw [byAdmin_ok hadmin, ok_bind, need_ok (by rw [hlive, hrole]; rfl), ok_bind, param_ok hlen]
  rfl

theorem successionInherit_holds : effSuccessionInherit.Holds := by
  refine HostEffect.holds_of_hostCmd (fun r s => (rfl : exec _ s = execSuccessionInherit r s)) fun r s d _ h => ?_
  simp only [effSuccessionInherit, Bool.and_eq_true, and_assoc] at h
  obtain ⟨htenant, hlive, hrole, hconvert⟩ := h
  rw [needTenant_ok htenant, ok_bind, need_ok (by rw [hlive, hrole]; rfl), ok_bind, outcome_convertBody s _ hconvert]
  rfl

theorem succStatus_holds : effSuccStatus.Holds := by
  refine HostEffect.holds_of_hostCmd (fun r s => (rfl : exec _ s = execSuccStatus r s)) fun r s d _ h => ?_
  obtain ⟨hadmin, hlen⟩ := Bool.and_eq_true_iff.1 h
  rw [byAdmin_ok hadmin, ok_bind, param_ok hlen]
  rfl

/-- Settles O22, a clause a row: under its effect's conditions each row's checks pass and its body makes the effect. -/
theorem incomingSuccessionComplete : Obligations.IncomingSuccessionComplete :=
  ⟨succOffer_holds, succReceive_holds, succReceiveLast_holds, succActivate_holds, succRelease_holds, succAbort_holds, succClose_holds,
    successionInherit_holds, succStatus_holds⟩

end Sys2Proof.Machine
end

section
/-! PROOFS. TAP instructions and debug requests (R684-R697, R701). -/
namespace Sys2Proof.Machine

/-- Where boundary scan is open an instruction of the TAP selects its register. -/
theorem tapInstr_open {c : Instr} {v : BitVec 5} {f : Dev → Dev} (hexec : ∀ s, exec c s = tapInstr v f s) :
    Happens c (fun d => tapLive d && tapOpen d) (fun d => setIr v (f d)) := by
  refine happens_of_lift hexec fun d h => ?_
  obtain ⟨hlive, hopen⟩ := Bool.and_eq_true_iff.1 h
  rw [hlive, hopen]
  rfl

/-- Where it is closed BYPASS is selected (R685). -/
theorem tapInstr_closed {c : Instr} {v : BitVec 5} {f : Dev → Dev} (hexec : ∀ s, exec c s = tapInstr v f s) :
    Happens c (fun d => tapLive d && !tapOpen d) (setIr 0x1F) := by
  refine happens_of_lift hexec fun d h => ?_
  simp only [Bool.and_eq_true, Bool.not_eq_true'] at h
  rw [h.1, h.2]
  rfl

/-- An instruction of every state acts wherever the TAP runs. -/
theorem happens_of_tapLive {c : Instr} {f : Dev → Dev} (hexec : ∀ s, exec c s = lift (fun d => if tapLive d then f d else d) s) :
    Happens c tapLive f :=
  happens_of_lift hexec fun _ hlive => if_pos hlive

/-- Settles O44: five instructions where boundary scan is open and where it is closed, and three of every state. -/
theorem tapInstructionsHappen : Obligations.TapInstructionsHappen := by
  have hextest : ∀ s, exec .extest s = execExtest s := fun _ => rfl
  have hclamp : ∀ s, exec .clamp s = execClamp s := fun _ => rfl
  have hhighz : ∀ s, exec .highz s = execHighz s := fun _ => rfl
  have hselect : ∀ s, exec .dbgSelect s = execDbgSelect s := fun _ => rfl
  have hsample : ∀ s, exec .samplePreload s = execSamplePreload s := fun _ => rfl
  refine ⟨tapInstr_open hextest, tapInstr_open hclamp, tapInstr_open hhighz, tapInstr_open hselect, tapInstr_open hsample, ?_,
    happens_of_tapLive fun s => (rfl : exec _ s = execIdcode s), happens_of_tapLive fun s => (rfl : exec _ s = execBypass s),
    happens_of_tapLive fun s => (rfl : exec _ s = execTestLogicReset s)⟩
  simp only [List.forall_mem_cons]
  exact ⟨tapInstr_closed hextest, tapInstr_closed hclamp, tapInstr_closed hhighz, tapInstr_closed hselect, tapInstr_closed hsample,
    List.forall_mem_nil _⟩

section Requests

variable {c : Instr} {core : BitVec 4} {addr : BitVec 24} {f : Dev → Dev}

/-- A request on a register that is ready acts on the device that echoes its core and address. -/
theorem happens_of_debugReq {pre : Dev → Bool} {g : Dev → Dev} (hexec : ∀ s, exec c s = debugReq core addr f s)
    (hpre : ∀ d, pre d = true → dbgReady core d = true) (hact : ∀ d, pre d = true → f (echoed core addr d) = g d) : Happens c pre g := by
  refine happens_of_lift hexec fun d h => ?_
  have hready := hpre d h
  simp only [dbgReady, Bool.and_eq_true, and_assoc] at hready
  obtain ⟨hlive, hattached, hselected, hnone, hcore⟩ := hready
  rw [hlive, hattached, hselected, Option.isNone_iff_eq_none.1 hnone, ← hact d h]
  exact if_pos hcore

/-- The same under a further condition on the device. -/
theorem happens_of_debugReq_when {cond : Dev → Bool} {g : Dev → Dev} (hexec : ∀ s, exec c s = debugReq core addr f s)
    (hact : ∀ d, cond d = true → f (echoed core addr d) = g d) : Happens c (fun d => dbgReady core d && cond d) g :=
  happens_of_debugReq hexec (fun _ h => (Bool.and_eq_true_iff.1 h).1) fun d h => hact d (Bool.and_eq_true_iff.1 h).2

/-- A request shifted in while another is held answers PENDING (R692). -/
theorem debugReq_pending (hexec : ∀ s, exec c s = debugReq core addr f s) :
    Happens c (fun d => tapLive d && d.dbg.attached && d.dbg.ir == 0x10 && d.dbg.held.isSome) (result 1) := by
  refine happens_of_lift hexec fun d h => ?_
  simp only [Bool.and_eq_true, and_assoc] at h
  obtain ⟨hlive, hattached, hselected, hheld⟩ := h
  rw [hlive, hattached, hselected, hheld]
  rfl

end Requests

theorem dbgNop_answers (req core : BitVec 4) :
    Happens (.dbgNop req core) (dbgReady core) (fun d => result (if req = 0 then 0 else 4) (echoed core 0 d)) :=
  happens_of_debugReq (fun s => (rfl : exec _ s = execDbgNop req core s)) (fun _ h => h)
    fun d _ => congrArg (fun v => result v (echoed core 0 d)) (if_congr beq_iff_eq rfl rfl)

/-- What the core does not reach is answered by 5; what it reaches is read by the peek path (R690). -/
theorem dbgRead_answers (core : BitVec 4) (addr : BitVec 24) : Happens (.dbgRead core addr) (dbgReady core) (fun d =>
    if coreReaches core addr then
      let x := echoed core addr d
      let y := { x with dbg := { x.dbg with data := memWord d core addr } }
      if readHasEffect core addr then
        result 2 (if y.dbg.peeked then y else debugEvent 6 { y with dbg := { y.dbg with peeked := true } })
      else result 0 y
    else result 5 (echoed core addr d)) := by
  refine happens_of_debugReq (fun s => (rfl : exec _ s = execDbgRead core addr s)) (fun _ h => h) fun d _ => ?_
  cases coreReaches core addr with
  | true => rfl
  | false => rfl

theorem dbgWrite_answers (core : BitVec 4) (addr : BitVec 24) (v : Word) : Happens (.dbgWrite core addr v) (dbgReady core) (fun d =>
    if coreReaches core addr then
      result 0 { echoed core addr d with dbg := { (echoed core addr d).dbg with memory := putWord (memKey core addr) v d.dbg.memory } }
    else result 5 (echoed core addr d)) := by
  refine happens_of_debugReq (fun s => (rfl : exec _ s = execDbgWrite core addr v s)) (fun _ h => h) fun d _ => ?_
  cases coreReaches core addr with
  | true => rfl
  | false => rfl

theorem dbgHalt_allowed (core : BitVec 4) : Happens (.dbgHalt core false) (fun d => dbgReady core d && haltAllowed d core.toNat)
    (fun d => haltCore core.toNat (echoed core 0 d)) := by
  refine happens_of_debugReq_when (fun s => (rfl : exec _ s = execDbgHalt core false s)) fun d hallowed => ?_
  have hgo : haltAllowed (echoed core 0 d) core.toNat = true := hallowed
  rw [hgo]
  rfl

/-- The core is inside an atomic region: the request is held (R692). -/
theorem dbgHalt_held (core : BitVec 4) : Happens (.dbgHalt core true) (fun d => dbgReady core d && haltAllowed d core.toNat)
    (fun d => result 1 { echoed core 0 d with dbg := { (echoed core 0 d).dbg with held := some core } }) := by
  refine happens_of_debugReq_when (fun s => (rfl : exec _ s = execDbgHalt core true s)) fun d hallowed => ?_
  have hgo : haltAllowed (echoed core 0 d) core.toNat = true := hallowed
  rw [hgo]
  rfl

/-- SEC's firmware is halted in MANUFACTURE alone (R693). -/
theorem haltAllowed_sec {d : Dev} (hrun : d.boot.running = true) (hstate : (d.lifecycle != .manufacture) = true) : haltAllowed d 1 = false := by
  have hfactory : decide (d.lifecycle = .manufacture) = false := by simpa [lifecycle_beq, bne] using hstate
  rw [haltAllowed, hfactory, hrun]
  rfl

theorem dbgHalt_refused (atomic : Bool) : Happens (.dbgHalt 1 atomic) (fun d => dbgReady 1 d && d.boot.running && d.lifecycle != .manufacture)
    (fun d => result 4 (haltRecord 4 (echoed 1 0 d))) := by
  simp only [Bool.and_assoc]
  refine happens_of_debugReq_when (fun s => (rfl : exec _ s = execDbgHalt 1 atomic s)) fun d hbarred => ?_
  obtain ⟨hrun, hstate⟩ := Bool.and_eq_true_iff.1 hbarred
  have hno : haltAllowed (echoed 1 0 d) (BitVec.toNat (1 : BitVec 4)) = false := haltAllowed_sec hrun hstate
  rw [hno]
  rfl

/-- The atomic region of a held request has ended in time, or has not. -/
theorem dbgHaltDeferred_ends (core : BitVec 4) (ended : Bool) : Happens (.dbgHaltDeferred ended) (fun d => d.dbg.held == some core)
    (fun d => if ended then haltCore core.toNat { d with dbg := { d.dbg with held := none } }
      else result 3 (haltRecord 4 { d with dbg := { d.dbg with held := none } })) := by
  refine happens_of_lift (fun s => (rfl : exec _ s = execDbgHaltDeferred ended s)) fun d h => ?_
  rw [eq_of_beq h]

theorem dbgResume_answers (core : BitVec 4) : Happens (.dbgResume core) (fun d => dbgReady core d && d.dbg.halted.contains core.toNat)
    (fun d => result 0 (haltRecord 5 (coresResume { echoed core 0 d with dbg := { (echoed core 0 d).dbg with
      halted := d.dbg.halted.filter (· != core.toNat) } }))) :=
  happens_of_debugReq_when (fun s => (rfl : exec _ s = execDbgResume core s)) fun _ hhalted => if_pos hhalted

/-- Settles O45, a clause a request: each is the one way of a request through a register that is ready. -/
theorem debugRequestsHappen : Obligations.DebugRequestsHappen :=
  ⟨dbgNop_answers, dbgRead_answers, dbgWrite_answers, dbgHalt_allowed, dbgHalt_held, dbgHalt_refused,
    fun core => dbgHaltDeferred_ends core true, fun core => dbgHaltDeferred_ends core false, dbgResume_answers,
    fun core => happens_of_debugReq (fun s => (rfl : exec _ s = execDbgStep core s)) (fun _ h => h) fun _ _ => rfl,
    fun core => happens_of_debugReq (fun s => (rfl : exec _ s = execDbgStatus core s)) (fun _ h => h) fun _ _ => rfl,
    fun core => debugReq_pending fun s => (rfl : exec _ s = execDbgStatus core s)⟩

end Sys2Proof.Machine
end

section
/-! PROOFS. The machine as a whole: a step is the front command's meaning, and every command completes (R198, R222). -/
namespace Sys2Proof.Machine

/-- Settles O46. -/
theorem stepRunsFront : Obligations.StepRunsFront :=
  ⟨fun c rest s h => by rw [step, h], fun s h => by rw [step, h]⟩

/-- A whole frame, refused or accepted, leaves the queue of commands. -/
theorem frameComplete_pending (p : Port) (ws : List Word) (s : State) : (frameComplete p ws s).pending = s.pending := by
  unfold frameComplete
  dsimp only
  split
  · exact frameRefusal_pending p ws _ _ s
  split
  · exact frameRefusal_pending p ws _ _ s
  split
  · exact frameRefusal_pending p ws _ _ s
  · rfl

theorem frameWordsIn_pending (p : Port) (old new : List Word) (s : State) : (frameWordsIn p old new s).pending = s.pending := by
  unfold frameWordsIn
  dsimp only
  split
  · rfl
  split
  · exact frameRefusal_pending p _ _ _ s
  split
  · exact frameRefusal_pending p _ _ _ s
  split
  · rfl
  split
  · exact frameComplete_pending p _ _
  · exact frameComplete_pending p _ _

theorem frameStart_pending (p : Port) (words : List Word) (s : State) : (frameStart p words s).pending = s.pending := by
  unfold frameStart
  dsimp only
  split
  · exact frameWordsIn_pending p [] words _
  · rfl

theorem requestFrame_keepsQueue (p : Port) (o : Nat) (ws : List Word) (s : State) :
    ∃ t, exec (.requestFrame p o ws) s = .next t ∧ t.pending = s.pending := by
  refine ⟨_, (rfl : exec _ s = execRequestFrame p o ws s), ?_⟩
  dsimp only
  split
  · split
    · exact frameStart_pending p ws s
    split
    · rfl
    split
    · rfl
    · exact frameWordsIn_pending p _ ws s
  · rfl

theorem replyEnqueue_keepsQueue (p : Port) (s : State) : ∃ t, exec (.replyEnqueue p) s = .next t ∧ t.pending = s.pending := by
  refine ⟨_, (rfl : exec _ s = execReplyEnqueue p s), ?_⟩
  dsimp only
  split
  · rfl
  · split <;> rfl

theorem replyRelease_keepsQueue (p : Port) (tag : BitVec 16) (s : State) :
    ∃ t, exec (.replyRelease p tag) s = .next t ∧ t.pending = s.pending := by
  refine ⟨_, (rfl : exec _ s = execReplyRelease p tag s), ?_⟩
  split <;> rfl

/-- Settles O47: the link's own three rows one by one, and every other row by what `exec_calm` says of it. -/
theorem everyCommandCompletes : Obligations.EveryCommandCompletes := by
  intro c s
  by_cases hframe : ∃ p o ws, c = .requestFrame p o ws
  · obtain ⟨p, o, ws, rfl⟩ := hframe
    obtain ⟨t, hnext, hqueue⟩ := requestFrame_keepsQueue p o ws s
    exact ⟨t, hnext, hqueue, fun hother => absurd rfl (hother p o ws)⟩
  by_cases hreply : ∃ p, c = .replyEnqueue p
  · obtain ⟨p, rfl⟩ := hreply
    obtain ⟨t, hnext, hqueue⟩ := replyEnqueue_keepsQueue p s
    exact ⟨t, hnext, hqueue, fun _ hother => absurd rfl (hother p)⟩
  by_cases hrelease : ∃ p tag, c = .replyRelease p tag
  · obtain ⟨p, tag, rfl⟩ := hrelease
    obtain ⟨t, hnext, hqueue⟩ := replyRelease_keepsQueue p tag s
    exact ⟨t, hnext, hqueue, fun _ _ hother => absurd rfl (hother p tag)⟩
  obtain ⟨t, hnext, hqueue, hflow⟩ := exec_calm c s (fun p o ws hc => hframe ⟨p, o, ws, hc⟩) (fun p hc => hreply ⟨p, hc⟩)
    (fun p tag hc => hrelease ⟨p, tag, hc⟩)
  exact ⟨t, hnext, hqueue, fun _ _ _ => hflow⟩

end Sys2Proof.Machine
end

section
/-! PROOFS. Class 0x0F: applets are loaded, called, armed and read (R652, R666, R672-R683). -/
namespace Sys2Proof.Machine

/-- The load's first word names an applet and an offset alone: its last-chunk bit is clear. -/
theorem lastBit_clear {w : Word} (h : onlyBits w [(47, 32), (15, 0)] = true) : bitOf w 24 = false := by
  have hw : w = mkWord [(47, 32, fld w 47 32), (15, 0, fld w 15 0)] := eq_of_beq h
  have hnat := congrArg BitVec.toNat hw
  rw [mkWord_pair_toNat] at hnat
  generalize fld w 47 32 = a at hnat
  generalize fld w 15 0 = b at hnat
  have hshort : w.toNat / 2 ^ 24 % 2 = 0 := by omega
  rw [bitOf, hshort]
  rfl

theorem onlyBits_lastBit {w : Word} (h : onlyBits w [(47, 32), (15, 0)] = true) : onlyBits w [(47, 32), (24, 24), (15, 0)] = true := by
  have hclear : fld w 24 24 = 0 := by
    have hbit := lastBit_clear h
    have hodd : w.toNat / 2 ^ 24 % 2 ≠ 1 := by simpa [bitOf] using hbit
    simp only [fld, Nat.add_sub_cancel_left, Nat.pow_one]
    omega
  simpa [onlyBits, mkWord, hclear] using h

/-- The load of a command's applet is over. -/
def loadEnded (r : Req) (d : Dev) : Dev := { d with app := { d.app with loads := d.app.loads.filter (fun l => l.1 != refOf r) } }

/-- The words of the load with the command's chunk. -/
def loadWith (r : Req) (d : Dev) : List Word := loadSoFar r d ++ r.words.drop 1

/-- The chunk is a whole frame without reserved bits. -/
def loadFormed (r : Req) : Bool := r.sized r.words.length && r.sizedMin 2 && onlyBits (r.w 0) [(47, 32), (24, 24), (15, 0)]

/-- It is at the next offset and ends within the largest image. -/
def loadInOrder (r : Req) (d : Dev) : Bool := r.f 0 15 0 == (loadSoFar r d).length && decide ((loadWith r d).length ≤ imageMax)

theorem loadFormed_intro {r : Req} (hsized : r.sized r.words.length = true) (hmin : r.sizedMin 2 = true)
    (hbits : onlyBits (r.w 0) [(47, 32), (24, 24), (15, 0)] = true) : loadFormed r = true := by
  rw [loadFormed, hsized, hmin, hbits]
  rfl

theorem loadInOrder_intro {r : Req} {d : Dev} (horder : (r.f 0 15 0 == (loadSoFar r d).length) = true)
    (hroom : decide ((loadWith r d).length ≤ imageMax) = true) : loadInOrder r d = true := by
  rw [loadInOrder, horder, hroom]
  rfl

/-- The load of a chunk once its issuer is allowed, on the device as it was and the one the command is served on. -/
def loadBody (r : Req) (d0 d : Dev) : Res (Dev × Done) := do
  param (loadFormed r && loadInOrder r d0)
  need (!((appletAt d (refOf r)).any (·.loaded))) St.busyRetry
  if bitOf (r.w 0) 24 then admitImage r (refOf r) (loadWith r d0) { d with app := { d.app with loads := d0.app.loads } } d
  else okWords { d with app := { d.app with loads := (loadEnded r d0).app.loads ++ [(refOf r, loadWith r d0)] } } [word (loadWith r d0).length]

/-- The command is the last chunk of its load, which is over whatever the image comes to. -/
def loadEnds (r : Req) (d : Dev) : Bool := bitOf (r.w 0) 24 && loadFormed r && loadInOrder r d && !mustWait r d && decide (d.now ≤ r.deadline)

theorem execAppletLoad_held {r : Req} {s : State} (hserved : Served 0x0F01 r s.dev) : execAppletLoad r s = .next { s with
    dev := serve r (fun d => do needTenant r; needRight d r 2) (loadBody r s.dev) (if loadEnds r s.dev then loadEnded r s.dev else s.dev) } := by
  rw [execAppletLoad, lift, if_pos ⟨hserved.1, hserved.2.1⟩]
  rfl

/-- What a chunk that passes its checks comes to: the last one ends the load before its image is looked at (R675). -/
theorem appletLoad_outcome {r : Req} {s : State} (hserved : Served 0x0F01 r s.dev) (htenant : (r.tenant != 0xFF) = true)
    (hright : hasRight (taken r s.dev) r 2 = true) (hform : loadFormed r = true) (horder : loadInOrder r s.dev = true)
    (hfree : (!((appletAt (taken r s.dev) (refOf r)).any (·.loaded))) = true) : exec (.appletLoad r) s =
      if bitOf (r.w 0) 24 then outcome r { s with dev := loadEnded r s.dev }
        (admitImage r (refOf r) (loadWith r s.dev) (taken r s.dev) (taken r (loadEnded r s.dev)))
      else outcome r s (okWords { taken r s.dev with
        app := { s.dev.app with loads := (loadEnded r s.dev).app.loads ++ [(refOf r, loadWith r s.dev)] } } [word (loadWith r s.dev).length]) := by
  have hended : Served 0x0F01 r (loadEnded r s.dev) := hserved
  have hright' : hasRight (taken r (loadEnded r s.dev)) r 2 = true := hright
  have hfree' : (!((appletAt (taken r (loadEnded r s.dev)) (refOf r)).any (·.loaded))) = true := hfree
  have hchunk : (loadFormed r && loadInOrder r s.dev) = true := by rw [hform, horder]; rfl
  have hends : loadEnds r s.dev = bitOf (r.w 0) 24 := by
    obtain ⟨-, -, hwait, htime, -⟩ := hserved
    simp only [loadEnds, hform, horder, hwait, htime, decide_true, Bool.not_false, Bool.and_true]
  refine (execAppletLoad_held hserved).trans ?_
  rw [hends]
  split
  next hlast =>
    rw [serve_eq _ _ hended, needTenant_ok htenant, ok_bind, needRight, need_ok hright', ok_bind, loadBody, param_ok hchunk, ok_bind,
      need_ok hfree', ok_bind, if_pos hlast]
    rfl
  next hmore =>
    rw [serve_eq _ _ hserved, needTenant_ok htenant, ok_bind, needRight, need_ok hright, ok_bind, loadBody, param_ok hchunk, ok_bind,
      need_ok hfree, ok_bind, if_neg hmore]
    rfl

/-- What an image that is formed, is the tenant's and is admitted comes to while an engine is idle (R652, R673, R675). -/
theorem admitImage_outcome {r : Req} {img e : List Word} {kept d : Dev} {s : State} (hd : taken r s.dev = d) (hformed : imgFormed img = true)
    (howner : (fld (wd img 0) 39 32 == r.tenant.toNat && fld (wd img 0) 31 16 == (refOf r).id.toNat) = true)
    (hentry : boundEntry d r (refOf r) = some e) (hversion : decide (fld (wd e 0) 23 8 ≤ fld (wd img 0) 15 0) = true)
    (hkey : (sha384 (wordsBytes (imgKeyWords img)) == wordsBytes (slice e 1 8)) = true)
    (hany : anyEngine kept = true) (hidle : engineIdle kept = true) :
    outcome r s (admitImage r (refOf r) img kept d) =
      let x := chargePk r.tenant (if imgScheme img == 2 then 0x04 else 0x06) d
      if !imgVerifies img then refused St.authFail r d s
      else match placeFor x img with
        | none => refused St.busyRetry r d s
        | some c => answers r [word img.length, word c, word (footprint img)] (mapApplet (refOf r) true { x with
            app := { x.app with applets := x.app.applets.filter (fun y => y.ref != refOf r) ++ [loadedApplet (refOf r) img c] } }) s := by
  subst hd
  rw [admitImage, param_ok hformed, ok_bind, need_ok howner, ok_bind, hentry]
  dsimp only
  rw [need_ok hversion, ok_bind, need_ok hkey, ok_bind, untilEngine_idle hany hidle]
  cases hsig : imgVerifies img with
  | false =>
    rw [need_bind_false rfl, outcome_rej_plain r s 0 rfl]
    rfl
  | true =>
    rw [need_ok rfl, ok_bind]
    cases placeFor (chargePk r.tenant (if imgScheme img == 2 then 0x04 else 0x06) (taken r s.dev)) img with
    | none => exact outcome_rej_plain r s 0 rfl
    | some c => rfl

theorem appletLoad_holds : effAppletLoad.Holds := by
  intro r s hserved h
  simp only [effAppletLoad, Bool.and_eq_true, and_assoc] at h
  obtain ⟨htenant, hright, hsized, hmin, hbits, horder, hroom, hfree⟩ := h
  have hform := loadFormed_intro hsized hmin (onlyBits_lastBit hbits)
  have hchunk : loadInOrder r s.dev = true :=
    loadInOrder_intro horder (by rw [loadWith, List.length_append, List.length_drop]; exact hroom)
  exact (appletLoad_outcome hserved htenant hright hform hchunk hfree).trans (if_neg (by rw [lastBit_clear hbits]; decide))

theorem appletLoadLast_holds : effAppletLoadLast.Holds := by
  intro r s hserved h
  simp only [effAppletLoadLast, Bool.and_eq_true, and_assoc] at h
  obtain ⟨htenant, hright, hsized, hmin, hbits, hlast, horder, hroom, hfree, hformed, howner, hid, hadmitted, hany, hidle⟩ := h
  obtain ⟨e, he, hentry⟩ := (Option.any_eq_true _ _).1 hadmitted
  obtain ⟨hversion, hkey⟩ := Bool.and_eq_true_iff.1 hentry
  have hform := loadFormed_intro hsized hmin hbits
  exact (appletLoad_outcome hserved htenant hright hform (loadInOrder_intro horder hroom) hfree).trans ((if_pos hlast).trans
    (admitImage_outcome (e := e) rfl hformed (Bool.and_eq_true_iff.2 ⟨howner, hid⟩) he hversion hkey hany hidle))

theorem theApplet_ok {r : Req} {d : Dev} {x : Applet} (h : appletOf r d = some x) : theApplet d r = .ok x := by
  obtain ⟨y, hat, hy⟩ := Option.bind_eq_some_iff.1 h
  obtain ⟨hloaded, heq⟩ := Option.ite_none_right_eq_some.1 hy
  obtain rfl : y = x := Option.some.inj heq
  rw [theApplet, hat]
  exact if_pos hloaded

theorem appletUnload_holds : effAppletUnload.Holds := by
  refine HostEffect.holds_of_hostCmd (fun r s => (rfl : exec _ s = execAppletUnload r s)) fun r s d hd h => ?_
  simp only [effAppletUnload, Bool.and_eq_true, and_assoc] at h
  obtain ⟨htenant, hsized, hbits, hloaded⟩ := h
  obtain ⟨x, hx⟩ := Option.isSome_iff_exists.1 hloaded
  rw [needTenant_ok htenant, ok_bind, param_ok (by rw [hsized, hbits]; rfl), ok_bind, theApplet_ok hx, ok_bind]
  simp only [effAppletUnload, hx]
  rfl

theorem appletCall_holds : effAppletCall.Holds := by
  refine HostEffect.holds_of_hostCmd (fun r s => (rfl : exec _ s = execAppletCall r s)) fun r s d hd h => ?_
  simp only [effAppletCall, Bool.and_eq_true, and_assoc] at h
  obtain ⟨htenant, hbits, hlen, hlong, hshort, hpad, hentry⟩ := h
  obtain ⟨x, hx, hbound⟩ := (Option.any_eq_true _ _).1 hentry
  obtain ⟨e, he, hpermits⟩ := (Option.any_eq_true _ _).1 hbound
  rw [needTenant_ok htenant, ok_bind]
  dsimp only
  rw [param_ok (by rw [hbits, hlen, hlong, hshort, hpad]; rfl), ok_bind, theApplet_ok hx, ok_bind, he]
  dsimp only
  rw [need_ok hpermits, ok_bind]
  simp only [effAppletCall, hx]
  rfl

theorem appletResult_holds : effAppletResult.Holds := by
  refine HostEffect.holds_of_hostCmd (fun r s => (rfl : exec _ s = execAppletResult r s)) fun r s d hd h => ?_
  obtain ⟨htenant, hany⟩ := Bool.and_eq_true_iff.1 h
  obtain ⟨l, hl, hended⟩ := (Option.any_eq_true _ _).1 hany
  obtain ⟨hfinal, hresult⟩ := Bool.and_eq_true_iff.1 hended
  obtain ⟨x, hat, hx⟩ := Option.bind_eq_some_iff.1 hl
  obtain ⟨hmay, heq⟩ := Option.ite_none_right_eq_some.1 hx
  obtain rfl : x = l := Option.some.inj heq
  simp only [Bool.and_eq_true, Bool.false_and, Bool.or_false, and_assoc] at hmay
  obtain ⟨hsized, hbits, hown⟩ := hmay
  rw [needTenant_ok htenant, ok_bind, param_ok (by rw [hsized, hbits]; rfl), ok_bind, hat]
  dsimp only
  rw [need_ok hown, ok_bind, param_ok hfinal, ok_bind, if_neg (by simpa using hresult)]
  simp only [effAppletResult, hl]
  rfl

theorem appletTrigger_holds : effAppletTrigger.Holds := by
  refine HostEffect.holds_of_hostCmd (fun r s => (rfl : exec _ s = execAppletTrigger r s)) fun r s d hd h => ?_
  simp only [effAppletTrigger, Bool.and_eq_true, and_assoc] at h
  obtain ⟨htenant, hsized, hbits, hlow, hhigh, hvalue, hentry⟩ := h
  obtain ⟨x, hx, hbound⟩ := (Option.any_eq_true _ _).1 hentry
  obtain ⟨e, he, hpermits⟩ := (Option.any_eq_true _ _).1 hbound
  rw [needTenant_ok htenant, ok_bind]
  dsimp only
  rw [param_ok (by rw [hsized, hbits, hlow, hhigh, hvalue]; rfl), ok_bind, theApplet_ok hx, ok_bind,
    need_ok (by rw [he]; exact hpermits), ok_bind]
  simp only [effAppletTrigger, hx]
  rfl

theorem appletStatus_holds : effAppletStatus.Holds := by
  refine HostEffect.holds_of_hostCmd (fun r s => (rfl : exec _ s = execAppletStatus r s)) fun r s d hd h => ?_
  simp only [effAppletStatus, Bool.and_eq_true, and_assoc] at h
  obtain ⟨htenant, hsized, hbits⟩ := h
  rw [needTenant_ok htenant, ok_bind, param_ok (by rw [hsized, hbits]; rfl), ok_bind]
  rfl

theorem appletList_holds : effAppletList.Holds := by
  refine HostEffect.holds_of_hostCmd (fun r s => (rfl : exec _ s = execAppletList r s)) fun r s d hd h => ?_
  obtain ⟨htenant, hempty⟩ := Bool.and_eq_true_iff.1 h
  rw [needTenant_ok htenant, ok_bind, param_ok hempty, ok_bind]
  rfl

/-- Settles O19, a lemma a row. -/
theorem appletCommandsComplete : Obligations.AppletCommandsComplete :=
  ⟨appletLoad_holds, appletLoadLast_holds, appletUnload_holds, appletCall_holds, appletResult_holds, appletTrigger_holds, appletStatus_holds,
    appletList_holds⟩

end Sys2Proof.Machine
end

section
/-! PROOFS. Events of the applet machine: triggers, starts, checkpoints, returns (R654, R660, R664-R671). -/
namespace Sys2Proof.Machine

theorem appletTimerTrigger_fires (a : AppletRef) (x : Applet) : Happens (.appletTimerTrigger a)
    (fun d => appletAt d a == some x && x.enabled.contains 2 && decide (x.timerAt < d.now / x.period))
    (fun d => fireTrigger 2 [d.time.tick] a (modApplet a (fun x => { x with timerAt := d.now / x.period }) d)) := by
  refine happens_of_lift (fun s => (rfl : exec _ s = execAppletTimerTrigger a s)) fun d h => ?_
  rw [Bool.and_assoc] at h
  obtain ⟨hat, hdue⟩ := Bool.and_eq_true_iff.1 h
  rw [eq_of_beq hat]
  exact if_pos hdue

/-- A queued activation starts where nothing holds it back. -/
theorem appletActivationStart_begins (a : AppletRef) (x : Applet) (t : Activation) (l : LongOp) : Happens (.appletActivationStart a)
    (fun d => appletAt d a == some x && x.act == some t && longAt d t.handle == some l && !t.started && l.state == .queued
      && (l.internal || decide (d.now ≤ l.deadline)) && x.loaded && !appletHalted d x && !dispatchStopped d && coresRun d
      && !laneTimeUp d d.pat.gen a.tenant)
    (beginActivation a x t l) := by
  refine happens_of_lift (fun s => (rfl : exec _ s = execAppletActivationStart a s)) fun d h => ?_
  simp only [Bool.and_eq_true, Bool.not_eq_true', and_assoc] at h
  obtain ⟨hat, hact, hlong, hfresh, hqueued, htime, hloaded, hhalted, hdispatch, hrun, hlane⟩ := h
  have hstate : decide (l.state = .queued) = true := by rwa [longState_beq] at hqueued
  have hontime : (!l.internal && decide (l.deadline < d.now)) = false := by
    cases hin : l.internal with
    | true => rfl
    | false => simpa [hin] using htime
  rw [eq_of_beq hat]
  dsimp only
  rw [eq_of_beq hact]
  dsimp only
  rw [eq_of_beq hlong]
  dsimp only
  rw [hfresh, hstate, hontime, hloaded, hhalted, hdispatch, hrun, hlane]
  rfl

theorem fuelCheckpoint_acts (a : AppletRef) (t : Activation) : Happens (.fuelCheckpoint a)
    (fun d => (appletAt d a).bind (·.act) == some t && t.started && t.call.isNone && checkpointDue t && (longAt d t.handle).any longRunning)
    (fun d => closeMixed (appletPoint a (chargeApplet a (setAct a { t with mark := t.mark - 4096 } d)))) := by
  refine happens_of_lift (fun s => (rfl : exec _ s = execFuelCheckpoint a s)) fun d h => ?_
  simp only [Bool.and_assoc] at h
  obtain ⟨hact, hdue⟩ := Bool.and_eq_true_iff.1 h
  rw [eq_of_beq hact]
  dsimp only
  rw [if_pos (by simpa only [Bool.and_assoc] using hdue)]

/-- The registers and the buffer after a service call's reply, its unit and its suspension point (log 59). -/
theorem serviceCallReturn_returns (a : AppletRef) (x : Applet) (t : Activation) (c : ServiceCall) (y : Reply) : Happens (.serviceCallReturn a)
    (fun d => appletAt d a == some x && x.act == some t && t.call == some c && !appletHalted d x && coresRun d
      && d.done.find? (fun y => y.req.origin == .applet a && y.req.id == c.id) == some y)
    (fun d =>
      let regs := setAt (setAt (setAt t.regs 0 (word (wireStatus y.req y.status).toNat)) 1 (word y.bytes)) 2 (replyH2 y.req.gen y.tick)
      let z := modApplet a (fun x => { x with
          act := some { t with regs := regs, call := none }
          data := putBytes x.data (6 * c.buffer) ((wordsBytes y.words).take (min y.bytes c.capacity)) })
        (freeSlot y.req.id { d with done := d.done.erase y })
      closeMixed (appletPoint a (modLong t.handle (fun l => { l with units := l.units + 1 }) z))) := by
  refine happens_of_lift (fun s => (rfl : exec _ s = execServiceCallReturn a s)) fun d h => ?_
  simp only [Bool.and_eq_true, Bool.not_eq_true', and_assoc] at h
  obtain ⟨hat, hact, hcall, hhalted, hrun, hreply⟩ := h
  rw [eq_of_beq hat]
  dsimp only
  rw [eq_of_beq hact]
  dsimp only
  rw [eq_of_beq hcall]
  dsimp only
  rw [hhalted, hrun, eq_of_beq hreply]
  rfl

/-- Settles O38, a lemma an event. -/
theorem appletEventsHappen : Obligations.AppletEventsHappen :=
  ⟨appletTimerTrigger_fires, appletActivationStart_begins, fuelCheckpoint_acts, serviceCallReturn_returns⟩

end Sys2Proof.Machine
end
